-- ==== Sys2Proof/Word.lean ====
section
/-!
DEFINITION. The word types of the utrakv2 CORE: a command word and a register read are 32 bits (spec 30 R100, 10 R60).
-/

namespace Sys2Proof

/-- A command word, a register read, the accumulator, a counter register: 32 bits (R60, R100). -/
abbrev Word := BitVec 32

/-- One byte of a stored command word (R83: a file convention, little-endian). -/
abbrev Byte := BitVec 8

end Sys2Proof
end

