-- ==== Sys2Proof/Config.lean ====
section
/-!
DEFINITION. What a model instance fixes before launch: the implementation parameters of 00_scope.md rule R5, their
constraints, and the model's free values. Nothing in Lean can evaluate a free value, so a claim holds whatever it is.
-/

namespace Sys2Proof

/-- Free value: real numbers other than 0, by number; their squares are the rates `Rate.free` names. -/
opaque Config.rateRoot : Nat → ℝˣ

/-- A clock or serial rate (R5: a positive real, in Hz), as plain data: a rational written out, or the number of a free positive
real (log entry 4, DESIGN CHOICE of form). -/
inductive Rate where
  | rational (q : Rat)
  | free (n : Nat)
deriving DecidableEq, Repr, Inhabited

/-- The real number a rate is. The square of a real other than 0 is positive, and every positive real is one. -/
def Rate.hertz : Rate → ℝ
  | .rational q => q
  | .free n => (Config.rateRoot n : ℝ) * (Config.rateRoot n : ℝ)

/-- R5's "positive", as `Rate.hertz_pos` says: a free rate is positive by its form. -/
def Rate.positive : Rate → Bool
  | .rational q => decide (0 < q)
  | .free _ => true

/-- A rate written out as a rational. -/
def Rate.isRational : Rate → Bool
  | .rational _ => true
  | .free _ => false

/-- A clock source code, 0 ACLK, 1 SMCLK, 2 MCLK, 3 external oscillator (R108). -/
abbrev ClkCode := BitVec 2

/-- One source and divider selection of the clock tree (R41). -/
structure ClockSelection where
  source : Nat
  divider : Nat
deriving DecidableEq, Repr, Inhabited

/-- `CLK_CFG`: the selections for the oscillator, the auxiliary and the sub-main clock (R5, R41). No rule looks inside
it. DESIGN CHOICE (log entry 5): the shape of the record, which no source gives. -/
structure ClkCfg where
  dco : ClockSelection
  auxiliary : ClockSelection
  subMain : ClockSelection
deriving DecidableEq, Repr, Inhabited

/-- What `BAUD_DIV` answers: a 16-bit divisor and an 8-bit modulation (R5, R179). -/
structure BaudSetting where
  br : BitVec 16
  modulation : BitVec 8
deriving DecidableEq, Repr, Inhabited

/-- One pinned value of `BAUD_DIV`. -/
structure BaudEntry where
  rate : Rate
  baud : Rate
  setting : BaudSetting
deriving DecidableEq, Repr, Inhabited

/-- The parameters of R5 (and `IRQ_PRIO` of D44), one field each, in R5's order. `PARK_LEVEL` is a constant (D26);
`BAUD_DIV` is a function, so the parameters pin it at finitely many arguments and `Config.baudDiv` gives the rest.
`PROGRAM` stands beside them in the state. DESIGN CHOICE (log entry 29): R5 gives `FAULT_DELAY` the type "any" and no
identity to a pin; the delay is a natural number here, and a pin is named by one. -/
structure Params where
  wHb : Nat
  wSym : Nat
  hbInc : Word
  symInc : Word
  hbFirst : Word
  symFirst : Word
  hbClk : ClkCode
  hbDiv : Nat
  symClk : ClkCode
  symDiv : Nat
  clkCfg : ClkCfg
  fMclk : Rate
  fSmclk : Rate
  fAclk : Rate
  fXosc : Rate
  tHb : Rate
  tSym : Rate
  baudGps : Rate
  baudRf : Rate
  serClkGps : ClkCode
  serClkRf : ClkCode
  baudPinned : List BaudEntry
  pinsGps : List Nat
  pinsRf : List Nat
  unusedPins : List Nat
  railActiveGps : Bool
  railActiveRf : Bool
  faultDelay : Nat
  wdtTimeout : Word
  irqPrio : List Nat
deriving DecidableEq, Repr, Inhabited

/-- R5's constraints on the timers' parameters: `1 ≤ W ≤ 32`, `1 ≤ INC ≤ 2^W − 1`, `FIRST ≤ 2^W − 1`. -/
def timerParamsValid (w : Nat) (inc first : Word) : Bool :=
  decide (1 ≤ w) && decide (w ≤ 32) && decide (1 ≤ inc.toNat) && decide (inc.toNat < 2 ^ w)
    && decide (first.toNat < 2 ^ w)

/-- The rates an instance can hand to `BAUD_DIV` (R179). -/
def Params.baudArguments (p : Params) : List Rate := [p.fMclk, p.fSmclk, p.fAclk, p.fXosc, p.baudGps, p.baudRf]

/-- Values of `BAUD_DIV` are pinned only where every rate it can be given is written out: two rates that are one real number are
then one datum, so the pins are a function of the two numbers (R179, log entry 6). -/
def Params.pinsWf (p : Params) : Bool := p.baudPinned.isEmpty || p.baudArguments.all Rate.isRational

/-- Every constraint R5's table puts on a parameter (and D44's: `IRQ_PRIO` orders vectors 2 to 4). -/
def Params.valid (p : Params) : Bool :=
  timerParamsValid p.wHb p.hbInc p.hbFirst && timerParamsValid p.wSym p.symInc p.symFirst
    && decide (1 ≤ p.hbDiv) && decide (1 ≤ p.symDiv)
    && p.fMclk.positive && p.fSmclk.positive && p.fAclk.positive && p.fXosc.positive
    && p.tHb.positive && p.tSym.positive && p.baudGps.positive && p.baudRf.positive
    && decide (p.pinsGps ++ p.pinsRf ++ p.unusedPins).Nodup
    && decide (1 ≤ p.wdtTimeout.toNat)
    && p.pinsWf
    && decide (p.irqPrio.Perm [2, 3, 4])

/-- `PARK_LEVEL`, the output level of a parked pin: 0 (R5, D26). -/
def parkLevel : Bool := false

/-- One instance that meets R5's constraints: only the value `Config.launch` falls back on where the free value does
not meet them. -/
def Params.smallest : Params where
  wHb := 1
  wSym := 1
  hbInc := 1
  symInc := 1
  hbFirst := 0
  symFirst := 0
  hbClk := 0
  hbDiv := 1
  symClk := 0
  symDiv := 1
  clkCfg := default
  fMclk := .rational 1
  fSmclk := .rational 1
  fAclk := .rational 1
  fXosc := .rational 1
  tHb := .rational 1
  tSym := .rational 1
  baudGps := .rational 1
  baudRf := .rational 1
  serClkGps := 0
  serClkRf := 0
  baudPinned := []
  pinsGps := []
  pinsRf := []
  unusedPins := []
  railActiveGps := true
  railActiveRf := true
  faultDelay := 0
  wdtTimeout := 1
  irqPrio := [2, 3, 4]

/-- Free value: some parameters. -/
opaque Config.anyParams : Params

/-- The launch parameters, OPEN in the spec (R5, D5, D6, D25 to D27, D32, D44, D45): some parameters that meet R5's
constraints (log entry 3). -/
def Config.launch : Params := if Config.anyParams.valid then Config.anyParams else Params.smallest

/-- Free value: the first word of the launched program. -/
opaque Config.firstWord : Word

/-- Free value: words after the first one. -/
opaque Config.furtherWords : List Word

/-- `PROGRAM` at launch, a launch argument (R5, R81, D35): some list of 1 to 65536 words (log entry 2). -/
def Config.launchProgram : List Word := Config.firstWord :: Config.furtherWords.take 65535

/-- Free value: `BAUD_DIV` (R5, R179) at the arguments no parameter pins. A function of the two real numbers alone. -/
opaque Config.baudDiv : ℝ → ℝ → BaudSetting

/-- Free value: the oscillator condition at power-on reset, a draw (R47, R305). -/
opaque Config.powerOnOscOk : Bool

/-- Free value: the fault flag at power-on reset when the oscillator condition is good, a draw (R330). -/
opaque Config.powerOnFault : Bool

/-- Free value: the scheduler's choice at each moment, as an index into the enabled steps (R9: the scheduler is free). -/
opaque Config.freeChoice : Nat → Nat

end Sys2Proof
end

