-- ==== Sys2Proof/Syntax.lean ====
section
/-!
DEFINITION. The commands of the CORE: one constructor per row of opcode_table.json (30_encoding.md rules R101 to R106).
-/

namespace Sys2Proof

/-- The two modules (R43, R109: GPS = 0, RF = 1). -/
inductive ModuleId where
  | gps
  | rf
deriving DecidableEq, Repr, Inhabited

/-- The Module State (R43, R109: Disabled = 0, Enabled = 1). -/
inductive ModState where
  | disabled
  | enabled
deriving DecidableEq, Repr, Inhabited

/-- The two timers (R109: HB = 0, SYM = 1). -/
inductive TimerId where
  | hb
  | sym
deriving DecidableEq, Repr, Inhabited

/-- One command of the command program. Operand widths are those of its A and IMM forms (R101): `mask3` is 3 bits, `mask8` and
`regidx` 8 bits, `count` and `target` 16 bits. -/
inductive Instr where
  | initHw
  | feedWdt
  | cfgGpsDisabled
  | cfgGpsEnabled
  | cfgRfDisabled
  | cfgRfEnabled
  | sleep
  | delayMs (n : BitVec 16)
  | delayUs (n : BitVec 16)
  | resetSym
  | flagsRead
  | flagsClear (mask : BitVec 3)
  | flagsXchg (mask : BitVec 3)
  | irqOff
  | irqOn
  | regRead (idx : BitVec 8)
  | jmp (target : BitVec 16)
  | bz (mask : BitVec 8) (target : BitVec 16)
  | bnz (mask : BitVec 8) (target : BitVec 16)
  | halt
deriving DecidableEq, Repr, Inhabited

/-- The class column of R106: `core` for the operations of the source's interface, `seq` for the sequencer's own. -/
inductive CommandClass where
  | core
  | seq
deriving DecidableEq, Repr

/-- The class of each command (R106). -/
def Instr.commandClass : Instr → CommandClass
  | .initHw => .core
  | .feedWdt => .core
  | .cfgGpsDisabled => .core
  | .cfgGpsEnabled => .core
  | .cfgRfDisabled => .core
  | .cfgRfEnabled => .core
  | .sleep => .core
  | .delayMs _ => .core
  | .delayUs _ => .core
  | .resetSym => .core
  | .flagsRead => .core
  | .flagsClear _ => .core
  | .flagsXchg _ => .core
  | .irqOff => .core
  | .irqOn => .core
  | .regRead _ => .seq
  | .jmp _ => .seq
  | .bz _ _ => .seq
  | .bnz _ _ => .seq
  | .halt => .seq

end Sys2Proof
end

