-- ==== Sys2Proof/Machine/State.lean ====
section
/-!
DEFINITION. The architectural state of the CORE (10_state.md rules R30 to R56), the event history (00_scope.md rule R11), the
launch arguments, the model's own scheduling fields, the reasons a step stops, and the state after power-on reset
(70_reset_and_hazards.md rule R330). A field the spec gives the marker UNKNOWN is an `Option` whose `none` IS that marker (R31).
-/

namespace Sys2Proof.Machine

/-- CPU power mode (R35). -/
inductive Mode where
  | active
  | sleep
  | halted
deriving DecidableEq, Repr, Inhabited

/-- Micro-steps of the clock-fault recovery handler (R36, R290). -/
inductive NmiStep where
  | n1
  | n2
  | n3
deriving DecidableEq, Repr

/-- The context the CPU executes in (R36). -/
inductive Ctx where
  | main
  | nmi (k : NmiStep)
deriving DecidableEq, Repr

/-- Micro-steps of the disable sequence: power the rail down, hold the interface, park the pins, record (R161). -/
inductive DisableStep where
  | d1
  | d2
  | d3
  | s
deriving DecidableEq, Repr

/-- Micro-steps of the enable sequence that both modules have: mux, configure, release, power up, record (R165). -/
inductive EnableStep where
  | e1
  | e2
  | e3
  | e4
  | s
deriving DecidableEq, Repr

/-- Micro-steps O1 to O4 of the RF oscillator loop (R170 to R173). -/
inductive OscStep where
  | o1
  | o2
  | o3
  | o4
deriving DecidableEq, Repr

/-- Micro-steps of INIT_HW (R131); I3 and I4 are disable sequences (R135, R136). -/
inductive InitStep where
  | i0
  | i1
  | i2
  | i3 (k : DisableStep)
  | i4 (k : DisableStep)
  | i5
  | i6
  | i7
deriving DecidableEq, Repr

/-- The position of main-line code inside a multi-step command (R37). `Cfg(m, Disabled, k)` is `disable m k`,
`Cfg(m, Enabled, k)` is `enable m k`, and `Cfg(RF, Enabled, O_k)` is `rfOsc k`: those steps belong to RF alone (R165), so
no such phase of GPS can be written (log entry 24). -/
inductive Phase where
  | fetch
  | init (k : InitStep)
  | disable (m : ModuleId) (k : DisableStep)
  | enable (m : ModuleId) (k : EnableStep)
  | rfOsc (k : OscStep)
  | symReset
deriving DecidableEq, Repr

/-- Model fault codes (R281). -/
inductive FaultCode where
  | illegalCommand
  | notInitialised
  | reInit
  | pcOutOfProgram
  | unwrittenAcc
  | readUnspecified
deriving DecidableEq, Repr

/-- A recorded model fault `(code, pc, word)` (R39, R280); the word is `none` where nothing was fetched. -/
structure ModelFault where
  code : FaultCode
  pc : Nat
  word : Option Word
deriving DecidableEq, Repr

/-- State of a rail (R44). -/
inductive Rail where
  | off
  | on
deriving DecidableEq, Repr

/-- State of a module's pins, all of them together (R45). -/
inductive PinMux where
  | parked
  | serial
deriving DecidableEq, Repr

/-- Reset line of a serial interface (R46). -/
inductive SerReset where
  | held
  | released
deriving DecidableEq, Repr

/-- Configuration of a serial interface: clock source code, divisor, modulation (R46, R179). -/
structure SerCfg where
  clk : ClkCode
  setting : BaudSetting
deriving DecidableEq, Repr

/-- State of one module (R43 to R46). -/
structure ModuleUnit where
  mstate : ModState
  rail : Option Rail
  pinmux : Option PinMux
  serRst : Option SerReset
  serCfg : Option SerCfg
deriving DecidableEq, Repr

/-- State of one timer (R48 to R50). A counter register is held in 32 bits; the timer's width bounds its value. -/
structure Timer where
  cnt : Option Word
  ccr : Option Word
  run : Bool
  ie : Bool
  pend : Bool
deriving DecidableEq, Repr

/-- The agents of R8. -/
inductive Agent where
  | cpu
  | hbTimer
  | symTimer
  | wdt
  | osc
  | ext
deriving DecidableEq, Repr

/-- The context tag of a fault-flag event (R11: MAIN or NMI). -/
inductive EventCtx where
  | main
  | nmi
deriving DecidableEq, Repr

/-- Unit of a delay event (R232, R233). -/
inductive DelayUnit where
  | ms
  | us
deriving DecidableEq, Repr

/-- The events of R11, in its order. -/
inductive Event where
  | clocksSet
  | pinsParked
  | rail (m : ModuleId) (v : Rail)
  | serReset (m : ModuleId) (v : SerReset)
  | serConfig (m : ModuleId) (clk : ClkCode) (br : BitVec 16) (modulation : BitVec 8)
  | pinmux (m : ModuleId) (v : PinMux)
  | moduleState (m : ModuleId) (v : ModState)
  | xoscStart
  | faultClear (c : EventCtx)
  | faultCheck (c : EventCtx) (v : Bool)
  | faultIeSet
  | timerInit (t : TimerId)
  | isr (t : TimerId) (newCcr : Word)
  | flagSet (bit : Nat)
  | resume
  | flagsRead (v : BitVec 3)
  | flagsClear (mask : BitVec 3)
  | flagsXchg (mask v : BitVec 3)
  | symResetCcr
  | symResetCnt
  | sleep
  | delay (unit : DelayUnit) (n : Word)
  | wdtFeed
  | wdtReset
  | nmiEnter
  | nmiExit
  | extIsr (resume : Bool)
  | fault (code : FaultCode)
  | halt
deriving DecidableEq, Repr

/-- One record of the event history (R11). -/
structure Record where
  agent : Agent
  event : Event
deriving DecidableEq, Repr

/-- The steps a scheduler chooses from (R8, R9), each with the draw the environment makes at it (R10, R305): `isrExt` carries
whether the EXT handler asks for a wake (R288), `wdtTick` the value `FAULT` takes if this tick resets the system while
the oscillator condition is good (R297). -/
inductive Choice where
  | main
  | nmiEntry
  | nmiStep
  | isrHb
  | isrSym
  | isrExt (resume : Bool)
  | tickHb
  | tickSym
  | wdtTick (faultDraw : Bool)
  | oscChange
  | extReq
deriving DecidableEq, Repr

/-- The machine state: every field of 10_state.md and the event history (R9), the launch arguments `params` and `program`, and
the model's own `schedule` (choices pinned in advance, the first one next) and `moment` (log entry 7). -/
structure State where
  /-- launch argument: the parameters of R5 -/
  params : Params
  /-- launch argument: `PROGRAM` (R81) -/
  program : List Word
  /-- R32 -/
  pc : Nat
  /-- R33; `none` is "unwritten" -/
  acc : Option Word
  /-- R34 -/
  gie : Bool
  /-- R35 -/
  mode : Mode
  /-- R36 -/
  ctx : Ctx
  /-- R37 -/
  phase : Phase
  /-- R38 -/
  initDone : Bool
  /-- R39 -/
  fault : Option ModelFault
  /-- R40: bit 0 HB_DUE, bit 1 SYM_DUE, bit 2 WAKE_REQ -/
  evflags : BitVec 3
  /-- R41 -/
  clkCfg : Option ClkCfg
  /-- R41 -/
  clkConfigured : Bool
  /-- R42 -/
  unusedParked : Bool
  /-- R43 to R46 for m = GPS -/
  gps : ModuleUnit
  /-- R43 to R46 for m = RF -/
  rf : ModuleUnit
  /-- `FAULT` (R47) -/
  oscFault : Bool
  /-- `FAULT_IE` (R47) -/
  faultIe : Bool
  /-- R47 -/
  xoscOn : Bool
  /-- R47: environment state -/
  oscOk : Bool
  /-- R48 to R50 for t = HB -/
  hb : Timer
  /-- R48 to R50 for t = SYM -/
  sym : Timer
  /-- R51 -/
  wdtCnt : Word
  /-- R52 -/
  extPend : Bool
  /-- R11, oldest first -/
  history : List Record
  /-- the model's own: choices pinned for the next steps -/
  schedule : List Choice
  /-- the model's own: steps taken so far, the argument of `Config.freeChoice` -/
  moment : Nat
deriving DecidableEq, Repr

/-- Why `step` stops. The meaning of a command never stops. -/
inductive Fault where
  /-- Raised by `step` when no agent has a step because `mode` = Halted (R266). It is the spec's own end of run; UNSAFE for a
  claim that reads the last state as one the chip stays in (R266, D36, log entry 11). -/
  | halted
  /-- Raised by `step` when no agent has a step because a model fault is recorded (R39, R280). Safe: the run ends there. -/
  | modelFault (f : ModelFault)
  /-- Raised by a tick or an interrupt step of a timer whose counter or compare register is UNKNOWN (R31). Safe: no run reaches
  such a state, since a timer runs only after its start-up wrote both (log entry 12). -/
  | unknownTimer (t : TimerId)
deriving DecidableEq, Repr

/-- Why an instruction has no meaning. -/
inductive Refusal where
  /-- Raised by `exec` for an instruction the model gives no meaning yet. Safe. No arm raises it: every command has its meaning. -/
  | notModelled (mnemonic : String)
deriving DecidableEq, Repr

/-- What a step or a meaning answers. -/
abbrev Result := Host.Outcome State Fault Refusal

/-- A module at reset: Disabled, every output UNKNOWN (R330). -/
def ModuleUnit.atReset : ModuleUnit where
  mstate := .disabled
  rail := none
  pinmux := none
  serRst := none
  serCfg := none

/-- A timer at reset: registers UNKNOWN, stopped (R330). -/
def Timer.atReset : Timer where
  cnt := none
  ccr := none
  run := false
  ie := false
  pend := false

/-- The state after power-on reset (R330). `osc_ok` and, when it is 1, `FAULT` are draws. The launch arguments are free
values: some parameters and some program of R5 (log entries 2 and 3). -/
def State.reset : State where
  params := Config.launch
  program := Config.launchProgram
  pc := 0
  acc := none
  gie := false
  mode := .active
  ctx := .main
  phase := .fetch
  initDone := false
  fault := none
  evflags := 0b000
  clkCfg := none
  clkConfigured := false
  unusedParked := false
  gps := ModuleUnit.atReset
  rf := ModuleUnit.atReset
  oscFault := !Config.powerOnOscOk || Config.powerOnFault
  faultIe := false
  xoscOn := false
  oscOk := Config.powerOnOscOk
  hb := Timer.atReset
  sym := Timer.atReset
  wdtCnt := 0
  extPend := false
  history := []
  schedule := []
  moment := 0

end Sys2Proof.Machine
end

