-- ==== Sys2Proof/Machine/Ops.lean ====
section
/-!
DEFINITION. The named operations over the state: modular arithmetic (R6), the history (R11), access to a timer or module by name,
the program space (R81), the fault flag as hardware (R292), raising a model fault (R280), NMI entry and return (R289,
R291), return from a maskable interrupt (R286) and the watchdog reset (R297).
-/

namespace Sys2Proof

/-! ### Parameters by name -/

/-- `W_t` (R5). -/
def Params.width (p : Params) : TimerId → Nat
  | .hb => p.wHb
  | .sym => p.wSym

/-- `INC_t` (R5). -/
def Params.increment (p : Params) : TimerId → Word
  | .hb => p.hbInc
  | .sym => p.symInc

/-- `t_FIRST` (R5). -/
def Params.first (p : Params) : TimerId → Word
  | .hb => p.hbFirst
  | .sym => p.symFirst

/-- `F(code)`: the rate of a clock source (R108, R179). -/
def Params.clockRate (p : Params) (c : ClkCode) : Rate :=
  match c.toNat with
  | 0 => p.fAclk
  | 1 => p.fSmclk
  | 2 => p.fMclk
  | _ => p.fXosc

/-- `SER_CLK_m` (R5). -/
def Params.serClk (p : Params) : ModuleId → ClkCode
  | .gps => p.serClkGps
  | .rf => p.serClkRf

/-- `BAUD_m` (R5). -/
def Params.baud (p : Params) : ModuleId → Rate
  | .gps => p.baudGps
  | .rf => p.baudRf

/-- `RAIL_ACTIVE_m` (R5): the level of the rail's enable pin that powers the rail. -/
def Params.railActive (p : Params) : ModuleId → Bool
  | .gps => p.railActiveGps
  | .rf => p.railActiveRf

/-- `BAUD_DIV(rate, baud)` (R5, R179): a total function of the two real numbers, pinned values first
(`Params.baudDiv_of_hertz`). -/
def Params.baudDiv (p : Params) (rate baud : Rate) : BaudSetting :=
  match p.baudPinned.find? (fun e => e.rate == rate && e.baud == baud) with
  | some e => e.setting
  | none => Config.baudDiv rate.hertz baud.hertz

/-- The serial configuration every enable of module `m` writes: `(SER_CLK_m, BAUD_DIV(F(SER_CLK_m), BAUD_m))` (R179). -/
def Params.serialCfg (p : Params) (m : ModuleId) : Machine.SerCfg where
  clk := p.serClk m
  setting := p.baudDiv (p.clockRate (p.serClk m)) (p.baud m)

end Sys2Proof

namespace Sys2Proof.Machine

/-- `a +_W b` (R6): the sum modulo `2^W`. -/
def addW (w : Nat) (a b : Word) : Word := BitVec.ofNat 32 ((a.toNat + b.toNat) % 2 ^ w)

/-- `MAX_t = 2^W − 1` (R5). -/
def maxW (w : Nat) : Word := BitVec.ofNat 32 (2 ^ w - 1)

/-! ### History and accessors -/

/-- `emit(ev)` by an agent: the event is appended to the history (R11). -/
def State.emit (s : State) (a : Agent) (e : Event) : State := { s with history := s.history ++ [⟨a, e⟩] }

/-- The state of timer `t` (R48 to R50). -/
def State.timer (s : State) : TimerId → Timer
  | .hb => s.hb
  | .sym => s.sym

/-- Writes timer `t`. -/
def State.withTimer (s : State) (t : TimerId) (x : Timer) : State :=
  match t with
  | .hb => { s with hb := x }
  | .sym => { s with sym := x }

/-- The state of module `m` (R43 to R46). -/
def State.moduleUnit (s : State) : ModuleId → ModuleUnit
  | .gps => s.gps
  | .rf => s.rf

/-- Writes module `m`. -/
def State.withModule (s : State) (m : ModuleId) (x : ModuleUnit) : State :=
  match m with
  | .gps => { s with gps := x }
  | .rf => { s with rf := x }

/-- `pc <- pc + 1`, without wrap-around (R265). -/
def State.advance (s : State) : State := { s with pc := s.pc + 1 }

/-- The last micro-step of a command: `pc <- pc + 1; phase <- Fetch` (R139, R174, R205). -/
def State.finish (s : State) : State := { s with pc := s.pc + 1, phase := .fetch }

/-! ### Levels the outputs drive -/

/-- The level of a rail's enable pin: `RAIL_ACTIVE_m` when On, the other level when Off (R44). -/
def State.railEnableLevel (s : State) (m : ModuleId) : Option Bool :=
  match (s.moduleUnit m).rail with
  | some .on => some (s.params.railActive m)
  | some .off => some (!s.params.railActive m)
  | none => none

/-- The level every pin of `PINS_m` drives while parked: an output at `PARK_LEVEL` (R45, R164). -/
def State.modulePinLevel (s : State) (m : ModuleId) : Option Bool :=
  match (s.moduleUnit m).pinmux with
  | some .parked => some parkLevel
  | some .serial => none
  | none => none

/-- The level every pin of `UNUSED_PINS` drives once parked (R42). -/
def State.unusedPinLevel (s : State) : Option Bool := if s.unusedParked then some parkLevel else none

/-! ### Program space -/

/-- The most words a program has (R81). -/
def maxProgram : Nat := 65536

/-- The canonical form of the program space: a dense list of 1 to 65536 words (R5, R81). -/
def programWf (p : List Word) : Bool := decide (1 ≤ p.length) && decide (p.length ≤ maxProgram)

/-- Command fetch: the word at index `pc`, none at or beyond the end (R260, R265). -/
def fetchWord (p : List Word) (pc : Nat) : Option Word := p[pc]?

/-- A program with word `w` at an index: longer by illegal words (0x00000000, R110) where the index lies beyond its end. Only
a loader outside the machine does this: no rule writes the program space (R81). -/
def placeWord : List Word → Nat → Word → List Word
  | [], 0, w => [w]
  | [], k + 1, w => 0 :: placeWord [] k w
  | _ :: p, 0, w => w :: p
  | x :: p, k + 1, w => x :: placeWord p k w

/-- Loads one command word where main-line code fetches next and makes its fetch the very next step: main-line code active at
phase Fetch, no fault, `pc` inside the program space, and the scheduler's next choice the main-line step. -/
def State.placeNext (s : State) (w : Word) : State :=
  let pc := if s.pc < maxProgram then s.pc else 0
  { s with
    pc := pc
    program := placeWord s.program pc w
    mode := .active
    ctx := .main
    phase := .fetch
    fault := none
    schedule := .main :: s.schedule }

/-! ### The fault flag as hardware -/

/-- A software write of 0 to `FAULT`: it clears the flag only while the oscillator condition is good (R292). -/
def State.clearOscFault (s : State) : State :=
  { s with oscFault := if s.oscOk then false else s.oscFault }

/-! ### Model faults, the NMI, interrupt return, reset -/

/-- `raise Fault(code, pc, word)` (R280): records the fault with the `pc` it happened at and emits `FAULT(code)`; no other
field changes. -/
def State.raise (s : State) (code : FaultCode) (word : Option Word) : State :=
  { s with fault := some ⟨code, s.pc, word⟩ }.emit .cpu (.fault code)

/-- NMI entry (R289): `ctx <- NMI(N1)`, emit `NMI_ENTER`; every other field is kept. -/
def State.enterNmi (s : State) : State := { s with ctx := .nmi .n1 }.emit .cpu .nmiEnter

/-- NMI return (R291): `ctx <- Main`, emit `NMI_EXIT`. -/
def State.returnNmi (s : State) : State := { s with ctx := .main }.emit .cpu .nmiExit

/-- Return from a maskable interrupt (R286): a resume request wakes a sleeping CPU and is otherwise forgotten. -/
def State.returnInterrupt (s : State) (resume : Bool) : State :=
  if resume = true ∧ s.mode = .sleep then { s with mode := .active }.emit .cpu .resume else s

/-- The watchdog reset (R297): every field takes its reset value (R330), except the launch arguments, the history (kept,
`WDT_RESET` appended), `osc_ok` and `fault` (kept), and `FAULT` (1 while `osc_ok` = 0, else the draw). The model's own
scheduling fields are no part of the machine and are kept. -/
def State.watchdogReset (s : State) (faultDraw : Bool) : State :=
  { State.reset with
    params := s.params
    program := s.program
    history := s.history
    oscOk := s.oscOk
    fault := s.fault
    oscFault := !s.oscOk || faultDraw
    schedule := s.schedule
    moment := s.moment }.emit .wdt .wdtReset

end Sys2Proof.Machine
end

