-- ==== Sys2Proof/Machine/Flags.lean ====
section
/-!
DEFINITION. The event flags (10_state.md rules R40, R54, R61; 43_power_flags.md rule R235): the only flags of the machine. There
are no condition codes, so no command computes a flag as a side effect.
-/

namespace Sys2Proof.Machine

/-- The three event flags (R40). -/
inductive EventFlag where
  | hbDue
  | symDue
  | wakeReq
deriving DecidableEq, Repr

/-- The bit position of a flag in `EVFLAGS` (R61). -/
def EventFlag.bit : EventFlag → Nat
  | .hbDue => 0
  | .symDue => 1
  | .wakeReq => 2

/-- Whether a flag is set. -/
def flagIsSet (v : BitVec 3) (f : EventFlag) : Bool := v.getLsbD f.bit

/-- A flag's bit set, the others kept (R40: interrupt handlers only set). -/
def setFlagBit (v : BitVec 3) (f : EventFlag) : BitVec 3 := v ||| BitVec.ofNat 3 (2 ^ f.bit)

/-- The flags in `mask` cleared, the others kept (R237, R238). -/
def clearFlagBits (v mask : BitVec 3) : BitVec 3 := v &&& ~~~mask

/-- A handler's bit-set of one flag and its event (R200, R202, R288). -/
def State.setFlag (s : State) (f : EventFlag) : State :=
  { s with evflags := setFlagBit s.evflags f }.emit .cpu (.flagSet f.bit)

end Sys2Proof.Machine
end

