-- ==== Sys2Proof/WellFormed.lean ====
section
/-!
DEFINITION. Which commands have an encoding. The operand types already bound every operand but one: a register index is 8 bits
wide and only 0x00 to 0x0F name a register (10_state.md rule R69).
-/

namespace Sys2Proof

/-- The first reserved register index (R60, R69). -/
def firstReservedIndex : Nat := 0x10

/-- A command is well formed when some legal word encodes it: REG_READ names no reserved index (R69, R110). -/
def Instr.wellFormed : Instr → Bool
  | .initHw => true
  | .feedWdt => true
  | .cfgGpsDisabled => true
  | .cfgGpsEnabled => true
  | .cfgRfDisabled => true
  | .cfgRfEnabled => true
  | .sleep => true
  | .delayMs _ => true
  | .delayUs _ => true
  | .resetSym => true
  | .flagsRead => true
  | .flagsClear _ => true
  | .flagsXchg _ => true
  | .irqOff => true
  | .irqOn => true
  | .regRead idx => decide (idx.toNat < firstReservedIndex)
  | .jmp _ => true
  | .bz _ _ => true
  | .bnz _ _ => true
  | .halt => true

end Sys2Proof
end

