-- ==== Sys2Proof/Decode.lean ====
section
/-!
DEFINITION. Decoding, total on any 32-bit word and on any list of bytes, and the encoder written from the same tables
(30_encoding.md rules R100 to R113, opcode_table.json; byte order 20_memory.md rule R83).
-/

namespace Sys2Proof

/-- `OPC` = word[31:24] (R100). -/
def opcField (w : Word) : BitVec 8 := w.extractLsb' 24 8

/-- `A` = word[23:16] (R100). -/
def aField (w : Word) : BitVec 8 := w.extractLsb' 16 8

/-- `IMM` = word[15:0] (R100). -/
def immField (w : Word) : BitVec 16 := w.extractLsb' 0 16

/-- `OPC << 24 | A << 16 | IMM` (R100). -/
def mkWord (opc a : BitVec 8) (imm : BitVec 16) : Word := opc ++ (a ++ imm)

/-- Why a word or a list of bytes is no command (R110). -/
inductive Illegal where
  /-- `OPC` is not in the opcode map (R106). -/
  | unknownOpcode
  /-- A field or bit that must be 0 is not (R107). -/
  | reservedField
  /-- REG_READ of an index 0x10 or more (R69). -/
  | reservedIndex
  /-- Fewer than four bytes: no whole command word (R112). -/
  | truncated
deriving DecidableEq, Repr

/-- Forms `zero`, `zero` (R101): both operand fields must be 0. -/
def decodePlain (a : BitVec 8) (imm : BitVec 16) (i : Instr) : Except Illegal Instr :=
  if a = 0 ∧ imm = 0 then .ok i else .error .reservedField

/-- The code of a module: GPS = 0, RF = 1 (R109). -/
def ModuleId.code : ModuleId → BitVec 1
  | .gps => 0
  | .rf => 1

/-- The code of a Module State: Disabled = 0, Enabled = 1 (R109). -/
def ModState.code : ModState → BitVec 1
  | .disabled => 0
  | .enabled => 1

/-- The code of a timer: HB = 0, SYM = 1 (R109). -/
def TimerId.code : TimerId → BitVec 1
  | .hb => 0
  | .sym => 1

/-- The module of a code (R109). -/
def moduleOfCode (c : BitVec 1) : ModuleId := if c = ModuleId.code .rf then .rf else .gps

/-- The Module State of a code (R109). -/
def modStateOfCode (c : BitVec 1) : ModState := if c = ModState.code .enabled then .enabled else .disabled

/-- CFG_MODULE of a module and a target state (R103). -/
def cfgModule : ModuleId → ModState → Instr
  | .gps, .disabled => .cfgGpsDisabled
  | .gps, .enabled => .cfgGpsEnabled
  | .rf, .disabled => .cfgRfDisabled
  | .rf, .enabled => .cfgRfEnabled

/-- The A field of CFG_MODULE (R103): A[7:2] 0, A[1] the module's code, A[0] the target state's. -/
def modselField (m : ModuleId) (v : ModState) : BitVec 8 := 0#6 ++ (m.code ++ v.code)

/-- Forms `modsel`, `zero` (R103): A[1] the module, A[0] the target state, A[7:2] 0. -/
def decodeModsel (a : BitVec 8) (imm : BitVec 16) : Except Illegal Instr :=
  if a.extractLsb' 2 6 = 0 ∧ imm = 0 then
    .ok (cfgModule (moduleOfCode (a.extractLsb' 1 1)) (modStateOfCode (a.extractLsb' 0 1)))
  else .error .reservedField

/-- Forms `zero` with `count` or `target` (R102): A must be 0, IMM is the operand. -/
def decodeImm (a : BitVec 8) (imm : BitVec 16) (f : BitVec 16 → Instr) : Except Illegal Instr :=
  if a = 0 then .ok (f imm) else .error .reservedField

/-- Forms `mask3`, `zero` (R104): A[2:0] is the mask, A[7:3] and IMM must be 0. -/
def decodeMask3 (a : BitVec 8) (imm : BitVec 16) (f : BitVec 3 → Instr) : Except Illegal Instr :=
  if a.extractLsb' 3 5 = 0 ∧ imm = 0 then .ok (f (a.extractLsb' 0 3)) else .error .reservedField

/-- Forms `regidx`, `zero` (R101, R69): A is the index, below 0x10. -/
def decodeRegidx (a : BitVec 8) (imm : BitVec 16) : Except Illegal Instr :=
  if imm = 0 then
    if a.toNat < firstReservedIndex then .ok (.regRead a) else .error .reservedIndex
  else .error .reservedField

/-- `decode(w)` (R113), case by case as the rule has it. -/
def decode (w : Word) : Except Illegal Instr :=
  let a := aField w
  let imm := immField w
  match (opcField w).toNat with
  | 0x01 => decodePlain a imm .initHw
  | 0x02 => decodePlain a imm .feedWdt
  | 0x03 => decodeModsel a imm
  | 0x04 => decodePlain a imm .sleep
  | 0x05 => decodeImm a imm .delayMs
  | 0x06 => decodeImm a imm .delayUs
  | 0x07 => decodePlain a imm .resetSym
  | 0x08 => decodePlain a imm .flagsRead
  | 0x09 => decodeMask3 a imm .flagsClear
  | 0x0A => decodeMask3 a imm .flagsXchg
  | 0x0B => decodePlain a imm .irqOff
  | 0x0C => decodePlain a imm .irqOn
  | 0x20 => decodeRegidx a imm
  | 0x30 => decodeImm a imm .jmp
  | 0x31 => .ok (.bz a imm)
  | 0x32 => .ok (.bnz a imm)
  | 0x3F => decodePlain a imm .halt
  | _ => .error .unknownOpcode

/-- The opcode of each command (R106). -/
def Instr.opcode : Instr → BitVec 8
  | .initHw => 0x01
  | .feedWdt => 0x02
  | .cfgGpsDisabled => 0x03
  | .cfgGpsEnabled => 0x03
  | .cfgRfDisabled => 0x03
  | .cfgRfEnabled => modselField .rf .enabled
  | .sleep => 0x04
  | .delayMs _ => 0x05
  | .delayUs _ => 0x06
  | .resetSym => 0x07
  | .flagsRead => 0x08
  | .flagsClear _ => 0x09
  | .flagsXchg _ => 0x0A
  | .irqOff => 0x0B
  | .irqOn => 0x0C
  | .regRead _ => 0x20
  | .jmp _ => 0x30
  | .bz _ _ => 0x31
  | .bnz _ _ => 0x32
  | .halt => 0x3F

/-- The A field of each command (R101, R103 to R105). -/
def Instr.aOperand : Instr → BitVec 8
  | .initHw => 0
  | .feedWdt => 0
  | .cfgGpsDisabled => modselField .gps .disabled
  | .cfgGpsEnabled => modselField .gps .enabled
  | .cfgRfDisabled => modselField .rf .disabled
  | .cfgRfEnabled => modselField .rf .enabled
  | .sleep => 0
  | .delayMs _ => 0
  | .delayUs _ => 0
  | .resetSym => 0
  | .flagsRead => 0
  | .flagsClear mask => mask.setWidth 8
  | .flagsXchg mask => mask.setWidth 8
  | .irqOff => 0
  | .irqOn => 0
  | .regRead idx => idx
  | .jmp _ => 0
  | .bz mask _ => mask
  | .bnz mask _ => mask
  | .halt => 0

/-- The IMM field of each command (R101, R102). -/
def Instr.immOperand : Instr → BitVec 16
  | .initHw => 0
  | .feedWdt => 0
  | .cfgGpsDisabled => 0
  | .cfgGpsEnabled => 0
  | .cfgRfDisabled => 0
  | .cfgRfEnabled => 0
  | .sleep => 0
  | .delayMs n => n
  | .delayUs n => n
  | .resetSym => 0
  | .flagsRead => 0
  | .flagsClear _ => 0
  | .flagsXchg _ => 0
  | .irqOff => 0
  | .irqOn => 0
  | .regRead _ => 0
  | .jmp target => target
  | .bz _ target => target
  | .bnz _ target => target
  | .halt => 0

/-- The word of a command (R100, R106). For a well-formed command it is the one word that decodes to it. -/
def encode (i : Instr) : Word := mkWord i.opcode i.aOperand i.immOperand

/-- The little-endian word of four bytes (R83). -/
def wordOfBytes (b0 b1 b2 b3 : Byte) : Word := b3 ++ (b2 ++ (b1 ++ b0))

/-- The four bytes of a word, least significant first (R83). -/
def bytesOfWord (w : Word) : List Byte :=
  [w.extractLsb' 0 8, w.extractLsb' 8 8, w.extractLsb' 16 8, w.extractLsb' 24 8]

/-- Reads one command off a list of bytes and answers the bytes left over (R112: every command is one word). -/
def decodeBytes : List Byte → Except Illegal (Instr × List Byte)
  | b0 :: b1 :: b2 :: b3 :: rest =>
    match decode (wordOfBytes b0 b1 b2 b3) with
    | .ok i => .ok (i, rest)
    | .error e => .error e
  | _ => .error .truncated

/-- The word whose low `nbits` bits are those of `w`, every other bit 0. -/
def tableWord (nbits w : Nat) : Word := BitVec.ofNat 32 (w % 2 ^ nbits)

/-- The instruction the decoder reads from the bits `w` of a row of opcode_table.json: the word is laid out as four
little-endian bytes and given to the byte decoder. -/
def decodeTableWord (nbits w : Nat) : Option Instr :=
  match decodeBytes (bytesOfWord (tableWord nbits w)) with
  | .ok (i, _) => some i
  | .error _ => none

end Sys2Proof
end

