-- ==== Sys2Proof/Machine/Operands.lean ====
section
/-!
DEFINITION. The operand forms as values (30_encoding.md rules R102 to R105), and the two checks a command makes before its effect:
main-line order of use (R267) and a written accumulator (R263, R264).
-/

namespace Sys2Proof.Machine

/-- `count` as the delay count `n = zext_32(IMM)` (R102). -/
def countValue (n : BitVec 16) : Word := n.setWidth 32

/-- `target` as an absolute program index (R102). -/
def targetIndex (target : BitVec 16) : Nat := target.toNat

/-- `mask8` as the test mask `zext_32(A)` (R105). -/
def testMask (mask : BitVec 8) : Word := mask.setWidth 32

/-- A flag value as the accumulator receives it, `zext_32` (R236, R238). -/
def flagsToAcc (v : BitVec 3) : Word := v.setWidth 32

/-- A core command other than INIT_HW: `NotInitialised` and no other effect while `init_done` = 0 (R260, R267), else its body. The
recorded word is the command's own (log entry 14). -/
def coreCommand (i : Instr) (s : State) (body : State → State) : Result :=
  if s.initDone then .next (body s) else .next (s.raise .notInitialised (some (encode i)))

/-- Branch on the masked accumulator: `UnwrittenAcc` while it is unwritten, else to `target` if `cond` holds of
`acc & mask`, else to the next index (R263, R264). -/
def branchOnAcc (i : Instr) (s : State) (mask : BitVec 8) (target : BitVec 16) (cond : Word → Bool) : Result :=
  match s.acc with
  | none => .next (s.raise .unwrittenAcc (some (encode i)))
  | some a => .next { s with pc := if cond (a &&& testMask mask) then targetIndex target else s.pc + 1 }

end Sys2Proof.Machine
end

