-- ==== Sys2Proof/Machine/Timers.lean ====
section
/-!
DEFINITION. The two timers: start-up, tick and compare match, and RESET_SYM (42_timers.md rules R190 to R193, R205).
-/

namespace Sys2Proof.Machine

/-- TIMER_START(t), one atomic step (R192). The write of counter and compare register does not itself compare (R193). -/
def startTimer (t : TimerId) (s : State) : State :=
  (s.withTimer t
    { cnt := some 0
      ccr := some (s.params.first t)
      pend := false
      ie := true
      run := true }).emit .cpu (.timerInit t)

/-- TICK_t (R190, R191): the counter advances modulo its width and a match sets the pending bit. A timer whose registers are
UNKNOWN stops the model (R31: no rule reads such a field; no run reaches it, log entry 12). -/
def tickTimer (t : TimerId) (s : State) : Result :=
  match (s.timer t).cnt, (s.timer t).ccr with
  | some c, some r =>
    let c' := addW (s.params.width t) c 1
    .next (s.withTimer t { s.timer t with cnt := some c', pend := (s.timer t).pend || c' == r })
  | _, _ => .fault (.unknownTimer t)

/-- RESET_SYM micro-step W1: the compare register is zeroed (R205). -/
def symResetW1 (s : State) : State :=
  { (s.withTimer .sym { s.sym with ccr := some 0 }).emit .cpu .symResetCcr with phase := .symReset }

/-- RESET_SYM micro-step W2: the counter is forced to its maximum (R205). -/
def symResetW2 (s : State) : State :=
  ((s.withTimer .sym { s.sym with cnt := some (maxW (s.params.width .sym)) }).emit .cpu .symResetCnt).finish

/-- RESET_SYM (R205): the entry step is W1. -/
def execResetSym (s : State) : Result := coreCommand .resetSym s symResetW1

end Sys2Proof.Machine
end

