-- ==== Sys2Proof/Machine/Interrupts.lean ====
section
/-!
DEFINITION. Interrupt sources and acceptance, the three maskable handlers, and the clock-fault recovery handler (60_exceptions.md rules
R283 to R291, 42_timers.md rules R195, R200, R202, 30_encoding.md rule R111).
-/

namespace Sys2Proof.Machine

/-- The sources of R283, power-on or watchdog reset among them. -/
inductive IrqSource where
  | reset
  | oscFault
  | hbMatch
  | symMatch
  | extWake
deriving DecidableEq, Repr

/-- The vector number of a source (R111). -/
def IrqSource.vector : IrqSource → Nat
  | .reset => 0
  | .oscFault => 1
  | .hbMatch => 2
  | .symMatch => 3
  | .extWake => 4

/-- Whether the source's request is pending (R283). A reset is never pending: it is taken at once, by the step that expires
(R297). -/
def irqPending (s : State) : IrqSource → Bool
  | .reset => false
  | .oscFault => s.oscFault
  | .hbMatch => s.hb.pend
  | .symMatch => s.sym.pend
  | .extWake => s.extPend

/-- Whether the source is enabled by its own enable; `gie` is checked at acceptance (R283). Reset is always enabled. -/
def irqEnabled (s : State) : IrqSource → Bool
  | .reset => true
  | .oscFault => s.faultIe
  | .hbMatch => s.hb.ie
  | .symMatch => s.sym.ie
  | .extWake => s.initDone

/-- No model fault is recorded and the run has not ended (R39, R266). -/
def State.alive (s : State) : Bool := s.fault.isNone && s.mode != .halted

/-- The NMI entry is enabled, whatever `gie` is (R284). -/
def nmiAccepted (s : State) : Bool :=
  s.alive && s.ctx == .main && irqPending s .oscFault && irqEnabled s .oscFault

/-- The step of a maskable source is enabled (R284): in Active and in Sleep, at any phase, unless the NMI comes first. -/
def maskableAccepted (s : State) (v : IrqSource) : Bool :=
  s.alive && s.ctx == .main && s.gie && irqPending s v && irqEnabled s v && !nmiAccepted s

/-- The part of a timer's handler both timers share: the request is taken, the compare register advances by the increment modulo its
width, the flag is set (R200 (a) and (b), R202). -/
def rearm (t : TimerId) (f : EventFlag) (ccr : Word) (s : State) : State :=
  let c := addW (s.params.width t) ccr (s.params.increment t)
  ((s.withTimer t { s.timer t with pend := false, ccr := some c }).emit .cpu (.isr t c)).setFlag f

/-- ISR_HB, one atomic step (R200); it resumes a sleeping CPU when `WAKE_REQ` is set. -/
def isrHb (s : State) : Result :=
  match s.hb.ccr with
  | some c =>
    let s' := rearm .hb .hbDue c s
    .next (s'.returnInterrupt (flagIsSet s'.evflags .wakeReq))
  | none => .fault (.unknownTimer .hb)

/-- ISR_SYM, one atomic step (R202); it never resumes. -/
def isrSym (s : State) : Result :=
  match s.sym.ccr with
  | some c => .next ((rearm .sym .symDue c s).returnInterrupt false)
  | none => .fault (.unknownTimer .sym)

/-- ISR_EXT, one atomic step (R288); `resume` is the draw of its resume request. -/
def isrExt (resume : Bool) (s : State) : State :=
  (({ s with extPend := false }.setFlag .wakeReq).emit .cpu (.extIsr resume)).returnInterrupt resume

/-- A micro-step of the clock-fault recovery handler (R290): clear, wait, check; it returns only from a check that reads 0. -/
def nmiMicro (k : NmiStep) (s : State) : State :=
  match k with
  | .n1 => { s.clearOscFault.emit .cpu (.faultClear .nmi) with ctx := .nmi .n2 }
  | .n2 => { s with ctx := .nmi .n3 }
  | .n3 =>
    let s' := s.emit .cpu (.faultCheck .nmi s.oscFault)
    if s.oscFault then { s' with ctx := .nmi .n1 } else s'.returnNmi

end Sys2Proof.Machine
end

