-- ==== Sys2Proof/Machine/Environment.lean ====
section
/-!
DEFINITION. The steps of the watchdog, the oscillator condition and the external wake source (60_exceptions.md rules R288, R293,
R296, R297). The timers' ticks are in Timers.lean.
-/

namespace Sys2Proof.Machine

/-- WDT_TICK (R296): the count advances and reaching `WDT_TIMEOUT` resets the system in the same step. -/
def wdtTick (faultDraw : Bool) (s : State) : State :=
  if s.wdtCnt + 1 = s.params.wdtTimeout then s.watchdogReset faultDraw
  else { s with wdtCnt := s.wdtCnt + 1 }

/-- OSC_CHANGE (R293): the condition flips; going bad forces `FAULT` to 1 (R292). -/
def oscChange (s : State) : State :=
  { s with oscOk := !s.oscOk, oscFault := if s.oscOk then true else s.oscFault }

/-- EXT_REQ is enabled (R288). -/
def extRequestEnabled (s : State) : Bool := s.alive && s.initDone && !s.extPend

/-- EXT_REQ (R288). -/
def extRequest (s : State) : State := { s with extPend := true }

end Sys2Proof.Machine
end

