-- ==== Sys2Proof/Machine/FlagCommands.lean ====
section
/-!
DEFINITION. Event-flag access by main-line code (43_power_flags.md rules R235 to R238). None of these sets a flag.
-/

namespace Sys2Proof.Machine

/-- FLAGS_READ (R236). -/
def execFlagsRead (s : State) : Result :=
  coreCommand .flagsRead s fun s =>
    ({ s with acc := some (flagsToAcc s.evflags) }.emit .cpu (.flagsRead s.evflags)).advance

/-- FLAGS_CLEAR mask (R237). -/
def execFlagsClear (mask : BitVec 3) (s : State) : Result :=
  coreCommand (.flagsClear mask) s fun s =>
    ({ s with evflags := clearFlagBits s.evflags mask }.emit .cpu (.flagsClear mask)).advance

/-- FLAGS_XCHG mask (R238): read and clear in one atomic step. -/
def execFlagsXchg (mask : BitVec 3) (s : State) : Result :=
  coreCommand (.flagsXchg mask) s fun s =>
    let v := s.evflags &&& mask
    ({ s with evflags := clearFlagBits s.evflags mask, acc := some (flagsToAcc v) }.emit
      .cpu (.flagsXchg mask v)).advance

end Sys2Proof.Machine
end

