-- ==== Sys2Proof/Machine/Modules.lean ====
section
/-!
DEFINITION. The Module Lifecycle Controller (41_module.md rules R160 to R179): the disable and enable sequences, the RF oscillator
loop and the four CFG_MODULE commands.
-/

namespace Sys2Proof.Machine

/-- What one micro-step of the disable sequence does to module `m` and the history, apart from the phase (R162 to R164, R174). -/
def disableEffect (m : ModuleId) (k : DisableStep) (s : State) : State :=
  let u := s.moduleUnit m
  match k with
  | .d1 => (s.withModule m { u with rail := some .off }).emit .cpu (.rail m .off)
  | .d2 => (s.withModule m { u with serRst := some .held }).emit .cpu (.serReset m .held)
  | .d3 => (s.withModule m { u with pinmux := some .parked }).emit .cpu (.pinmux m .parked)
  | .s => (s.withModule m { u with mstate := .disabled }).emit .cpu (.moduleState m .disabled)

/-- What one micro-step of the enable sequence does, apart from the phase (R166 to R169, R174). -/
def enableEffect (m : ModuleId) (k : EnableStep) (s : State) : State :=
  let u := s.moduleUnit m
  match k with
  | .e1 => (s.withModule m { u with pinmux := some .serial }).emit .cpu (.pinmux m .serial)
  | .e2 =>
    let c := s.params.serialCfg m
    ((s.withModule m { u with serRst := some .held, serCfg := some c }).emit .cpu (.serReset m .held)).emit
      .cpu (.serConfig m c.clk c.setting.br c.setting.modulation)
  | .e3 => (s.withModule m { u with serRst := some .released }).emit .cpu (.serReset m .released)
  | .e4 => (s.withModule m { u with rail := some .on }).emit .cpu (.rail m .on)
  | .s => (s.withModule m { u with mstate := .enabled }).emit .cpu (.moduleState m .enabled)

/-- A micro-step of CFG_MODULE(m, Disabled) (R161): D1, D2, D3, S. -/
def disableMicro (m : ModuleId) (k : DisableStep) (s : State) : State :=
  match k with
  | .d1 => { disableEffect m .d1 s with phase := .disable m .d2 }
  | .d2 => { disableEffect m .d2 s with phase := .disable m .d3 }
  | .d3 => { disableEffect m .d3 s with phase := .disable m .s }
  | .s => (disableEffect m .s s).finish

/-- The phase after E4: S for GPS, O1 for RF (R165, R169). -/
def afterE4 : ModuleId → Phase
  | .gps => .enable .gps .s
  | .rf => .rfOsc .o1

/-- A micro-step of CFG_MODULE(m, Enabled) outside the oscillator loop (R165). -/
def enableMicro (m : ModuleId) (k : EnableStep) (s : State) : State :=
  match k with
  | .e1 => { enableEffect m .e1 s with phase := .enable m .e2 }
  | .e2 => { enableEffect m .e2 s with phase := .enable m .e3 }
  | .e3 => { enableEffect m .e3 s with phase := .enable m .e4 }
  | .e4 => { enableEffect m .e4 s with phase := afterE4 m }
  | .s => (enableEffect m .s s).finish

/-- A micro-step of the RF oscillator start and verify loop (R170 to R173): O3 goes back to O2 while the flag reads 1, without bound. -/
def oscMicro (k : OscStep) (s : State) : State :=
  match k with
  | .o1 => { { s with xoscOn := true }.emit .cpu .xoscStart with phase := .rfOsc .o2 }
  | .o2 => { s.clearOscFault.emit .cpu (.faultClear .main) with phase := .rfOsc .o3 }
  | .o3 =>
    { s.emit .cpu (.faultCheck .main s.oscFault) with
      phase := if s.oscFault then .rfOsc .o2 else .rfOsc .o4 }
  | .o4 => { { s with faultIe := true }.emit .cpu .faultIeSet with phase := .enable .rf .s }

/-- The entry step of CFG_MODULE(m, s): only the phase changes (R160). -/
def enterModuleSequence (m : ModuleId) (target : ModState) (s : State) : State :=
  match target with
  | .disabled => { s with phase := .disable m .d1 }
  | .enabled => { s with phase := .enable m .e1 }

/-- CFG_MODULE GPS, DISABLED (R176). -/
def execCfgGpsDisabled (s : State) : Result :=
  coreCommand .cfgGpsDisabled s (enterModuleSequence .gps .disabled)

/-- CFG_MODULE GPS, ENABLED (R175). -/
def execCfgGpsEnabled (s : State) : Result :=
  coreCommand .cfgGpsEnabled s (enterModuleSequence .gps .enabled)

/-- CFG_MODULE RF, DISABLED (R178). -/
def execCfgRfDisabled (s : State) : Result :=
  coreCommand .cfgRfDisabled s (enterModuleSequence .rf .disabled)

/-- CFG_MODULE RF, ENABLED (R177). -/
def execCfgRfEnabled (s : State) : Result :=
  coreCommand .cfgRfEnabled s (enterModuleSequence .rf .enabled)

end Sys2Proof.Machine
end

