-- ==== Sys2Proof/Machine/Init.lean ====
section
/-!
DEFINITION. INIT_HW: the entry step and its micro-steps I0 to I7 (40_init.md rules R130 to R139).
-/

namespace Sys2Proof.Machine

/-- I1, the clock tree, one atomic configuration change (R133). -/
def configureClocks (s : State) : State :=
  { s with clkCfg := some s.params.clkCfg, clkConfigured := true }.emit .cpu .clocksSet

/-- I2, pins and power: unused pins parked, both rails off (R134). -/
def configurePins (s : State) : State :=
  ((({ s with
        unusedParked := true
        gps := { s.gps with rail := some .off }
        rf := { s.rf with rail := some .off } }.emit .cpu .pinsParked).emit
      .cpu (.rail .gps .off)).emit .cpu (.rail .rf .off))

/-- One micro-step of INIT_HW (R131 to R139). -/
def initMicro (k : InitStep) (s : State) : State :=
  match k with
  | .i0 => { { s with evflags := 0b000 }.emit .cpu (.flagsClear 0b111) with phase := .init .i1 }
  | .i1 => { configureClocks s with phase := .init .i2 }
  | .i2 => { configurePins s with phase := .init (.i3 .d1) }
  | .i3 .d1 => { disableEffect .gps .d1 s with phase := .init (.i3 .d2) }
  | .i3 .d2 => { disableEffect .gps .d2 s with phase := .init (.i3 .d3) }
  | .i3 .d3 => { disableEffect .gps .d3 s with phase := .init (.i3 .s) }
  | .i3 .s => { disableEffect .gps .s s with phase := .init (.i4 .d1) }
  | .i4 .d1 => { disableEffect .rf .d1 s with phase := .init (.i4 .d2) }
  | .i4 .d2 => { disableEffect .rf .d2 s with phase := .init (.i4 .d3) }
  | .i4 .d3 => { disableEffect .rf .d3 s with phase := .init (.i4 .s) }
  | .i4 .s => { disableEffect .rf .s s with phase := .init .i5 }
  | .i5 => { startTimer .hb s with phase := .init .i6 }
  | .i6 => { startTimer .sym s with phase := .init .i7 }
  | .i7 => { s with initDone := true }.finish

/-- INIT_HW (R130, R140): `ReInit` once `init_done` = 1, else the entry step, which changes only the phase. -/
def execInitHw (s : State) : Result :=
  if s.initDone then .next (s.raise .reInit (some (encode .initHw)))
  else .next { s with phase := .init .i0 }

end Sys2Proof.Machine
end

