-- ==== Sys2Proof/Machine/Power.lean ====
section
/-!
DEFINITION. Power Mode Controller, delays, watchdog feed, interrupt suppression (43_power_flags.md rules R230 to R234, R239, R240).
-/

namespace Sys2Proof.Machine

/-- SLEEP (R230): interrupts enabled and sleep entered in one step; `pc` already at the next command. -/
def execSleep (s : State) : Result :=
  coreCommand .sleep s fun s => { s with gie := true, mode := .sleep, pc := s.pc + 1 }.emit .cpu .sleep

/-- DELAY_MS (R232): the count, zero-extended, is recorded, nothing else changes. -/
def execDelayMs (n : BitVec 16) (s : State) : Result :=
  coreCommand (.delayMs n) s fun s => (s.emit .cpu (.delay .ms (countValue n))).advance

/-- DELAY_US (R233); `DELAY_US 0` is the NOP of R115. -/
def execDelayUs (n : BitVec 16) (s : State) : Result :=
  coreCommand (.delayUs n) s fun s => (s.emit .cpu (.delay .us (countValue n))).advance

/-- FEED_WDT (R234). -/
def execFeedWdt (s : State) : Result :=
  coreCommand .feedWdt s fun s => ({ s with wdtCnt := 0 }.emit .cpu .wdtFeed).advance

/-- IRQ_OFF (R239). -/
def execIrqOff (s : State) : Result := coreCommand .irqOff s fun s => { s with gie := false }.advance

/-- IRQ_ON (R240). -/
def execIrqOn (s : State) : Result := coreCommand .irqOn s fun s => { s with gie := true }.advance

end Sys2Proof.Machine
end

