-- ==== Sys2Proof/Machine/Registers.lean ====
section
/-!
DEFINITION. The read-only register index space (10_state.md rules R60 to R69): sixteen registers of 32 bits, read by REG_READ. A
read of a register with an UNKNOWN field answers none.
-/

namespace Sys2Proof.Machine

/-- The registers of R60, in index order. -/
inductive RegName where
  | evflags
  | hbCnt
  | hbCcr
  | hbCtl
  | symCnt
  | symCcr
  | symCtl
  | osc
  | clk
  | modGps
  | modRf
  | serCfgGps
  | serCfgRf
  | wdtCnt
  | cpu
  | pins
deriving DecidableEq, Repr

/-- The register an index names; none for the reserved indices 0x10 to 0xFF (R60, R69). -/
def regOfIndex (idx : BitVec 8) : Option RegName :=
  match idx.toNat with
  | 0x00 => some .evflags
  | 0x01 => some .hbCnt
  | 0x02 => some .hbCcr
  | 0x03 => some .hbCtl
  | 0x04 => some .symCnt
  | 0x05 => some .symCcr
  | 0x06 => some .symCtl
  | 0x07 => some .osc
  | 0x08 => some .clk
  | 0x09 => some .modGps
  | 0x0A => some .modRf
  | 0x0B => some .serCfgGps
  | 0x0C => some .serCfgRf
  | 0x0D => some .wdtCnt
  | 0x0E => some .cpu
  | 0x0F => some .pins
  | _ => none

/-- A register made of one-bit fields, bit 0 first; every bit not listed reads 0 (R60). -/
def wordOfBits : List Bool → Word
  | [] => 0
  | b :: rest => (if b then 1 else 0) ||| (wordOfBits rest <<< 1)

/-- `HB_CTL`, `SYM_CTL`: bit 0 run, bit 1 ie, bit 2 pend (R63). -/
def timerCtl (t : Timer) : Word := wordOfBits [t.run, t.ie, t.pend]

/-- `MOD_GPS`, `MOD_RF`: bit 0 Enabled, bit 1 rail On, bit 2 Held, bit 3 Serial; none while a field is UNKNOWN (R66). -/
def moduleStatus (m : ModuleUnit) : Option Word :=
  match m.rail, m.serRst, m.pinmux with
  | some rail, some rst, some mux =>
    some (wordOfBits [m.mstate == .enabled, rail == .on, rst == .held, mux == .serial])
  | _, _, _ => none

/-- `SER_CFG_m`: bits 15:0 divisor, 23:16 modulation, 25:24 clock source code, 31:26 zero (R67). -/
def serCfgWord (c : SerCfg) : Word := (0 : BitVec 6) ++ (c.clk ++ (c.setting.modulation ++ c.setting.br))

/-- A counter or compare register of width `w`: bits w−1:0 hold the value, bits 31:w read 0 (R62). -/
def timerRegister (w : Nat) (v : Word) : Word := BitVec.ofNat 32 (v.toNat % 2 ^ w)

/-- `RegRead(i)` (R60 to R68), none when some field of the register is UNKNOWN. -/
def readReg (s : State) : RegName → Option Word
  | .evflags => some (s.evflags.setWidth 32)
  | .hbCnt => s.hb.cnt.map (timerRegister (s.params.width .hb))
  | .hbCcr => s.hb.ccr.map (timerRegister (s.params.width .hb))
  | .hbCtl => some (timerCtl s.hb)
  | .symCnt => s.sym.cnt.map (timerRegister (s.params.width .sym))
  | .symCcr => s.sym.ccr.map (timerRegister (s.params.width .sym))
  | .symCtl => some (timerCtl s.sym)
  | .osc => some (wordOfBits [s.oscFault, s.faultIe, s.xoscOn])
  | .clk => some (wordOfBits [s.clkConfigured])
  | .modGps => moduleStatus s.gps
  | .modRf => moduleStatus s.rf
  | .serCfgGps => s.gps.serCfg.map serCfgWord
  | .serCfgRf => s.rf.serCfg.map serCfgWord
  | .wdtCnt => some s.wdtCnt
  | .cpu => some (wordOfBits [s.gie, s.initDone])
  | .pins => some (wordOfBits [s.unusedParked])

end Sys2Proof.Machine
end

