-- ==== Sys2Proof/Machine/Sequencer.lean ====
section
/-!
DEFINITION. The sequencer's own commands, legal before INIT_HW (44_sequencer.md rules R261 to R267).
-/

namespace Sys2Proof.Machine

/-- REG_READ idx (R261): `ReadUnspecified` while a field of the register is UNKNOWN; no side effect on the register (R86). A reserved
index, which no legal word holds, is the illegal command of R69 (log entry 15). -/
def execRegRead (idx : BitVec 8) (s : State) : Result :=
  match regOfIndex idx with
  | none => .next (s.raise .illegalCommand (some (encode (.regRead idx))))
  | some r =>
    match readReg s r with
    | none => .next (s.raise .readUnspecified (some (encode (.regRead idx))))
    | some v => .next { s with acc := some v }.advance

/-- JMP target (R262). -/
def execJmp (target : BitVec 16) (s : State) : Result := .next { s with pc := targetIndex target }

/-- BZ mask, target (R263). -/
def execBz (mask : BitVec 8) (target : BitVec 16) (s : State) : Result :=
  branchOnAcc (.bz mask target) s mask target (fun v => v == 0)

/-- BNZ mask, target (R264). -/
def execBnz (mask : BitVec 8) (target : BitVec 16) (s : State) : Result :=
  branchOnAcc (.bnz mask target) s mask target (fun v => v != 0)

/-- HALT (R266): the end of the run, `pc` not advanced. -/
def execHalt (s : State) : Result := .next ({ s with mode := .halted }.emit .cpu .halt)

end Sys2Proof.Machine
end

