-- ==== Sys2Proof/Machine/Dispatch.lean ====
section
/-!
DEFINITION. The dispatch of a decoded command to its meaning, one arm per constructor of Instr (30_encoding.md rule R106).
-/

namespace Sys2Proof.Machine

def exec (i : Instr) (s : State) : Host.Outcome State Fault Refusal :=
  match i with
  | .initHw => Sys2Proof.Machine.execInitHw s
  | .feedWdt => Sys2Proof.Machine.execFeedWdt s
  | .cfgGpsDisabled => Sys2Proof.Machine.execCfgGpsDisabled s
  | .cfgGpsEnabled => Sys2Proof.Machine.execCfgGpsEnabled s
  | .cfgRfDisabled => Sys2Proof.Machine.execCfgRfDisabled s
  | .cfgRfEnabled => Sys2Proof.Machine.execCfgRfEnabled s
  | .sleep => Sys2Proof.Machine.execSleep s
  | .delayMs n => Sys2Proof.Machine.execDelayMs n s
  | .delayUs n => Sys2Proof.Machine.execDelayUs n s
  | .resetSym => Sys2Proof.Machine.execResetSym s
  | .flagsRead => Sys2Proof.Machine.execFlagsRead s
  | .flagsClear mask => Sys2Proof.Machine.execFlagsClear mask s
  | .flagsXchg mask => Sys2Proof.Machine.execFlagsXchg mask s
  | .irqOff => Sys2Proof.Machine.execIrqOff s
  | .irqOn => Sys2Proof.Machine.execIrqOn s
  | .regRead idx => Sys2Proof.Machine.execRegRead idx s
  | .jmp target => Sys2Proof.Machine.execJmp target s
  | .bz mask target => Sys2Proof.Machine.execBz mask target s
  | .bnz mask target => Sys2Proof.Machine.execBnz mask target s
  | .halt => Sys2Proof.Machine.execHalt s

end Sys2Proof.Machine
end

