-- ==== Sys2Proof/Machine/MainLine.lean ====
section
/-!
DEFINITION. The step of main-line code: a micro-step of the command in progress, or fetch, decode and execute (44_sequencer.md rule
R260, order of checks 60_exceptions.md rule R282).
-/

namespace Sys2Proof.Machine

/-- Fetch, decode and execute one command (R260): `PcOutOfProgram` before the fetch, `IllegalCommand` from the word alone, then the
command's own checks and effect. -/
def fetchStep (s : State) : Result :=
  match fetchWord s.program s.pc with
  | none => .next (s.raise .pcOutOfProgram none)
  | some w =>
    match decode w with
    | .error _ => .next (s.raise .illegalCommand (some w))
    | .ok i => exec i s

/-- MAIN_STEP (R260). -/
def mainStep (s : State) : Result :=
  match s.phase with
  | .fetch => fetchStep s
  | .init k => .next (initMicro k s)
  | .disable m k => .next (disableMicro m k s)
  | .enable m k => .next (enableMicro m k s)
  | .rfOsc k => .next (oscMicro k s)
  | .symReset => .next (symResetW2 s)

end Sys2Proof.Machine
end

