-- ==== Sys2Proof/Machine/Schedule.lean ====
section
/-!
DEFINITION. The agents' steps and the free scheduler (00_scope.md rules R8 to R10, 60_exceptions.md rule R305). A step is one transition
of one agent chosen from the enabled ones: the choice pinned first in `schedule` if it is enabled, else a free one.
-/

namespace Sys2Proof.Machine

/-- The CPU's handler context has a micro-step to take (R290). -/
def inNmi (s : State) : Bool :=
  match s.ctx with
  | .main => false
  | .nmi _ => true

/-- When each step is enabled (R260, R284, R288, R290, R190, R293, R296). -/
def enabled (s : State) : Choice → Bool
  | .main => s.alive && s.ctx == .main && s.mode == .active
  | .nmiEntry => nmiAccepted s
  | .nmiStep => s.alive && inNmi s
  | .isrHb => maskableAccepted s .hbMatch
  | .isrSym => maskableAccepted s .symMatch
  | .isrExt _ => maskableAccepted s .extWake
  | .tickHb => s.alive && s.hb.run
  | .tickSym => s.alive && s.sym.run
  | .wdtTick _ => s.alive
  | .oscChange => s.alive
  | .extReq => extRequestEnabled s

/-- Every choice, draws included. -/
def allChoices : List Choice :=
  [.main, .nmiEntry, .nmiStep, .isrHb, .isrSym, .isrExt false, .isrExt true, .tickHb, .tickSym,
    .wdtTick false, .wdtTick true, .oscChange, .extReq]

/-- The enabled steps of a state. -/
def enabledChoices (s : State) : List Choice := allChoices.filter (enabled s)

/-- The free scheduler's choice: any enabled step, none where no agent has a step (R9). -/
def freePick (s : State) : Option Choice :=
  (enabledChoices s)[Config.freeChoice s.moment % (enabledChoices s).length]?

/-- The step taken next (log entry 7). -/
def pick (s : State) : Option Choice :=
  match s.schedule with
  | [] => freePick s
  | c :: _ => if enabled s c then some c else freePick s

/-- The scheduler's own bookkeeping of one step: the pinned choice is used up and a moment has passed. -/
def State.consume (s : State) : State := { s with schedule := s.schedule.tail, moment := s.moment + 1 }

/-- The micro-step of the handler the CPU is in; nothing in main-line context, where the step is not enabled. -/
def nmiHandlerStep (s : State) : State :=
  match s.ctx with
  | .main => s
  | .nmi k => nmiMicro k s

/-- The transition each choice names (R8). -/
def take (c : Choice) (s : State) : Result :=
  match c with
  | .main => mainStep s
  | .nmiEntry => .next s.enterNmi
  | .nmiStep => .next (nmiHandlerStep s)
  | .isrHb => isrHb s
  | .isrSym => isrSym s
  | .isrExt r => .next (isrExt r s)
  | .tickHb => tickTimer .hb s
  | .tickSym => tickTimer .sym s
  | .wdtTick f => .next (wdtTick f s)
  | .oscChange => .next (oscChange s)
  | .extReq => .next (extRequest s)

/-- Why no agent has a step: a recorded model fault (R39), else the end of the run (R266). -/
def stopReason (s : State) : Fault :=
  match s.fault with
  | some f => .modelFault f
  | none => .halted

/-- One transition of the machine (R9), or the reason there is none. -/
def stepOnce (s : State) : Result :=
  match pick s with
  | some c => take c s.consume
  | none => .fault (stopReason s)

end Sys2Proof.Machine
end

