-- ==== Sys2Proof/Machine/Step.lean ====
section
/-!
DEFINITION. One step of the machine, and the load of one command where the next step fetches it.
-/

namespace Sys2Proof.Machine

/-- One step: one transition of one enabled agent (R9). -/
def step (s : State) : Host.Outcome State Fault Refusal := stepOnce s

/-- `s` with the command of the bits `w` placed where main-line code fetches next, and the very next step that fetch (log entry 2). -/
def State.withFetchWord (s : State) (nbits w : Nat) : State := s.placeNext (tableWord nbits w)

end Sys2Proof.Machine
end

