-- ==== Sys2Proof/Machine/Assembler.lean ====
section
/-!
DEFINITION. The spec's assembler: syntax, labels and pseudo-instructions (30_encoding.md rules R114, R115). A program text becomes the
list of command words a run is launched with. No part of the machine calls it.
-/

namespace Sys2Proof.Machine

/-- A piece of program text. -/
abbrev Chars := List Char

/-- The pieces of a text between the occurrences of `c`. -/
def splitChars (c : Char) : Chars → List Chars
  | [] => [[]]
  | x :: xs =>
    if x = c then [] :: splitChars c xs
    else
      match splitChars c xs with
      | [] => [[x]]
      | h :: t => (x :: h) :: t

/-- A text without the blanks at its two ends. -/
def trimChars (cs : Chars) : Chars :=
  ((cs.dropWhile (· = ' ')).reverse.dropWhile (· = ' ')).reverse

/-- The value of a decimal or hexadecimal digit. -/
def digitValue (c : Char) : Option Nat :=
  if '0' ≤ c ∧ c ≤ '9' then some (c.toNat - '0'.toNat)
  else if 'a' ≤ c ∧ c ≤ 'f' then some (c.toNat - 'a'.toNat + 10)
  else if 'A' ≤ c ∧ c ≤ 'F' then some (c.toNat - 'A'.toNat + 10)
  else none

/-- The number digits spell in a base, after those already read. -/
def numberFrom (base : Nat) : Nat → Chars → Option Nat
  | acc, [] => some acc
  | acc, c :: cs =>
    match digitValue c with
    | some d => if d < base then numberFrom base (base * acc + d) cs else none
    | none => none

/-- A count, mask or index: decimal, or hexadecimal after 0x (R114). -/
def parseNumber : Chars → Option Nat
  | [] => none
  | ['0', 'x'] => none
  | '0' :: 'x' :: cs => numberFrom 16 0 cs
  | cs => numberFrom 10 0 cs

/-- The flag names of R114. -/
def flagOfName (cs : Chars) : Option Nat :=
  if cs = "HB".toList then some 1
  else if cs = "SYM".toList then some 2
  else if cs = "WAKE".toList then some 4
  else none

/-- The union of `|`-joined flag names. -/
def maskOfNames : List Chars → Option Nat
  | [] => some 0
  | n :: ns =>
    match flagOfName (trimChars n), maskOfNames ns with
    | some f, some m => some (f ||| m)
    | _, _ => none

/-- A flag mask: joined names or a number (R114). -/
def parseMask (cs : Chars) : Option Nat :=
  match parseNumber cs with
  | some n => some n
  | none => maskOfNames (splitChars '|' cs)

/-- The register names of R60, in index order. -/
def registerNames : List String :=
  ["EVFLAGS", "HB_CNT", "HB_CCR", "HB_CTL", "SYM_CNT", "SYM_CCR", "SYM_CTL", "OSC",
    "CLK", "MOD_GPS", "MOD_RF", "SER_CFG_GPS", "SER_CFG_RF", "WDT_CNT", "CPU", "PINS"]

/-- A register operand by name (R114). -/
def parseRegister (cs : Chars) : Option (BitVec 8) :=
  (registerNames.findIdx? (fun n => n.toList == cs)).map (BitVec.ofNat 8)

/-- A branch target: an absolute index, or a label that stands for one (R114). -/
inductive AsmTarget where
  | index (n : Nat)
  | label (name : Chars)
deriving DecidableEq, Repr

/-- A target operand. DESIGN CHOICE (log entry 31): R114's forms have a label here; a number is read as an absolute index, so a
label made of digits is never a target. -/
def parseTarget (cs : Chars) : AsmTarget :=
  match parseNumber cs with
  | some n => .index n
  | none => .label cs

/-- One assembler operation: a command without a target, a branch, or the two-command WAIT_FLAG (R115). -/
inductive AsmOp where
  | command (i : Instr)
  | jmp (t : AsmTarget)
  | bz (mask : BitVec 8) (t : AsmTarget)
  | bnz (mask : BitVec 8) (t : AsmTarget)
  | waitFlag (mask : BitVec 3) (t : AsmTarget)
deriving DecidableEq, Repr

/-- A number as an operand of `w` bits, if it fits. -/
def fitBits (w : Nat) (n : Option Nat) : Option (BitVec w) :=
  match n with
  | some n => if n < 2 ^ w then some (BitVec.ofNat w n) else none
  | none => none

/-- The module and state operands of CFG_MODULE (R103, R114). -/
def parseModsel (m s : Chars) : Option Instr :=
  if m = "GPS".toList ∧ s = "DISABLED".toList then some .cfgGpsDisabled
  else if m = "GPS".toList ∧ s = "ENABLED".toList then some .cfgGpsEnabled
  else if m = "RF".toList ∧ s = "DISABLED".toList then some .cfgRfDisabled
  else if m = "RF".toList ∧ s = "ENABLED".toList then some .cfgRfEnabled
  else none

/-- The operations without operands (R114, R115). -/
def plainOp (m : Chars) : Option Instr :=
  if m = "INIT_HW".toList then some .initHw
  else if m = "FEED_WDT".toList then some .feedWdt
  else if m = "SLEEP".toList then some .sleep
  else if m = "RESET_SYM".toList then some .resetSym
  else if m = "FLAGS_READ".toList then some .flagsRead
  else if m = "IRQ_OFF".toList then some .irqOff
  else if m = "IRQ_ON".toList then some .irqOn
  else if m = "HALT".toList then some .halt
  else if m = "NOP".toList then some (.delayUs 0)
  else if m = "FLAGS_CLEAR_ALL".toList then some (.flagsClear 7)
  else none

/-- The operations with one operand. -/
def oneOperandOp (m a : Chars) : Option AsmOp :=
  if m = "DELAY_MS".toList then (fitBits 16 (parseNumber a)).map (fun n => .command (.delayMs n))
  else if m = "DELAY_US".toList then (fitBits 16 (parseNumber a)).map (fun n => .command (.delayUs n))
  else if m = "FLAGS_CLEAR".toList then (fitBits 3 (parseMask a)).map (fun k => .command (.flagsClear k))
  else if m = "FLAGS_XCHG".toList then (fitBits 3 (parseMask a)).map (fun k => .command (.flagsXchg k))
  else if m = "TAKE".toList then (fitBits 3 (parseMask a)).map (fun k => .command (.flagsXchg k))
  else if m = "REG_READ".toList then (parseRegister a).map (fun r => .command (.regRead r))
  else if m = "JMP".toList then some (.jmp (parseTarget a))
  else if m = "B".toList then some (.jmp (parseTarget a))
  else none

/-- The operations with two operands. -/
def twoOperandOp (m a b : Chars) : Option AsmOp :=
  if m = "CFG_MODULE".toList then (parseModsel a b).map .command
  else if m = "BZ".toList then (fitBits 8 (parseMask a)).map (fun k => .bz k (parseTarget b))
  else if m = "BNZ".toList then (fitBits 8 (parseMask a)).map (fun k => .bnz k (parseTarget b))
  else if m = "WAIT_FLAG".toList then (fitBits 3 (parseMask a)).map (fun k => .waitFlag k (parseTarget b))
  else none

/-- A mnemonic and its operands (R114, R115). -/
def parseOp (cs : Chars) : Option AsmOp :=
  let m := cs.takeWhile (· ≠ ' ')
  let rest := trimChars (cs.drop m.length)
  match rest with
  | [] => (plainOp m).map .command
  | _ =>
    match (splitChars ',' rest).map trimChars with
    | [a] => oneOperandOp m a
    | [a, b] => twoOperandOp m a b
    | _ => none

/-- One line: an optional label, an optional operation; a comment starts with `;` (R114). -/
structure AsmLine where
  label : Option Chars
  op : Option AsmOp
deriving DecidableEq, Repr

/-- Reads the operation part of a line. -/
def parseBody (label : Option Chars) (cs : Chars) : Option AsmLine :=
  match trimChars cs with
  | [] => some ⟨label, none⟩
  | body => (parseOp body).map (fun op => ⟨label, some op⟩)

/-- Reads one line; none where it is not of R114's form. DESIGN CHOICE (log entry 31): R114 does not say what a label's name may
be; any text before the colon is one here, the blanks at its ends left out. -/
def parseLine (cs : Chars) : Option AsmLine :=
  match splitChars ':' (cs.takeWhile (· ≠ ';')) with
  | [body] => parseBody none body
  | [l, body] => parseBody (some (trimChars l)) body
  | _ => none

/-- How many commands an operation expands to (R115). -/
def AsmOp.size : AsmOp → Nat
  | .command _ => 1
  | .jmp _ => 1
  | .bz _ _ => 1
  | .bnz _ _ => 1
  | .waitFlag _ _ => 2

/-- The labels of a program with the program index each stands for, the first line at index `at_`. -/
def labelsFrom (at_ : Nat) : List AsmLine → List (Chars × Nat)
  | [] => []
  | ⟨l, op⟩ :: rest =>
    let tail := labelsFrom (at_ + (op.map AsmOp.size).getD 0) rest
    match l with
    | some name => (name, at_) :: tail
    | none => tail

/-- The index a target stands for, if it fits the IMM field (R102). DESIGN CHOICE (log entry 31): R114 does not say what a label on
two lines stands for; here it is the index of the first of them. -/
def resolveTarget (labels : List (Chars × Nat)) : AsmTarget → Option (BitVec 16)
  | .index n => fitBits 16 (some n)
  | .label name => fitBits 16 ((labels.find? (fun e => e.1 == name)).map Prod.snd)

/-- The commands of an operation (R115). DESIGN CHOICE (log entry 30): R115 expands `WAIT_FLAG f, label` only where the label is
the line itself; with another label, or an index, the same two commands branch there. -/
def expandOp (labels : List (Chars × Nat)) : AsmOp → Option (List Instr)
  | .command i => some [i]
  | .jmp t => (resolveTarget labels t).map (fun k => [.jmp k])
  | .bz mask t => (resolveTarget labels t).map (fun k => [.bz mask k])
  | .bnz mask t => (resolveTarget labels t).map (fun k => [.bnz mask k])
  | .waitFlag mask t =>
    (resolveTarget labels t).map (fun k => [.flagsXchg mask, .bz (mask.setWidth 8) k])

/-- The commands of the lines, in order. -/
def expandLines (labels : List (Chars × Nat)) : List AsmLine → Option (List Instr)
  | [] => some []
  | ⟨_, none⟩ :: rest => expandLines labels rest
  | ⟨_, some op⟩ :: rest =>
    match expandOp labels op, expandLines labels rest with
    | some is, some more => some (is ++ more)
    | _, _ => none

/-- Every line read, none where one is not of R114's form. -/
def parseLines : List Chars → Option (List AsmLine)
  | [] => some []
  | l :: rest =>
    match parseLine l, parseLines rest with
    | some x, some xs => some (x :: xs)
    | _, _ => none

/-- The command words of a program text, one line each (R114). -/
def assemble (lines : List String) : Option (List Word) :=
  match parseLines (lines.map String.toList) with
  | some ls => (expandLines (labelsFrom 0 ls) ls).map (fun is => is.map encode)
  | none => none

end Sys2Proof.Machine
end

