-- ==== Sys2Proof/Machine/Codes.lean ====
section
/-!
DEFINITION. The numbers the spec gives the arguments of the history and the causes of an event (30_encoding.md rules R109, R111;
60_exceptions.md rule R281). The history holds names; each function here answers the number of a name.
-/

namespace Sys2Proof.Machine

/-- The code column of R281. -/
def FaultCode.number : FaultCode → Nat
  | .illegalCommand => 1
  | .notInitialised => 2
  | .reInit => 3
  | .pcOutOfProgram => 4
  | .unwrittenAcc => 5
  | .readUnspecified => 6

/-- The code of the module an event is about (R11, R109). -/
def Event.moduleCode : Event → Option (BitVec 1)
  | .rail m _ => some m.code
  | .serReset m _ => some m.code
  | .serConfig m _ _ _ => some m.code
  | .pinmux m _ => some m.code
  | .moduleState m _ => some m.code
  | _ => none

/-- The code of the Module State an event records (R11, R109). -/
def Event.stateCode : Event → Option (BitVec 1)
  | .moduleState _ v => some v.code
  | _ => none

/-- The code of the timer an event is about (R11, R109). -/
def Event.timerCode : Event → Option (BitVec 1)
  | .timerInit t => some t.code
  | .isr t _ => some t.code
  | _ => none

/-- The number of the model fault an event records (R11, R281). -/
def Event.faultNumber : Event → Option Nat
  | .fault c => some c.number
  | _ => none

/-- The source an event of the history is the entry of: WDT_RESET, NMI_ENTER, ISR and EXT_ISR (R283). DESIGN CHOICE (log entry 32):
R111 numbers the vectors "for the history" and does not say on which events; only the entry events have one here, and a
handler's further events (FLAG_SET, RESUME, FAULT_CLEAR and FAULT_CHECK of NMI, NMI_EXIT) have none. A power-on reset has no
event, since a run starts with it (R8). -/
def Event.source : Event → Option IrqSource
  | .wdtReset => some .reset
  | .nmiEnter => some .oscFault
  | .isr .hb _ => some .hbMatch
  | .isr .sym _ => some .symMatch
  | .extIsr _ => some .extWake
  | _ => none

/-- The vector number of an entry event, its cause code (R111); none for every other event (log entry 32). -/
def Event.vector (e : Event) : Option Nat := e.source.map IrqSource.vector

end Sys2Proof.Machine
end

