-- ==== Sys2Proof/Safety.lean ====
section
/-!
DEFINITION. The terms claims are made in: runs of pinned choices, weak fairness (00_scope.md rule R9), the observed configuration of a
module (41_module.md rule R180), the periodicity ledger (42_timers.md rules R201, R203), the order of NMI events (60_exceptions.md
rule R291), and the invariants every step keeps.
-/

namespace Sys2Proof.Machine

/-! ### Runs -/

/-- `n` steps, stopping where a step stops. -/
def runSteps : Nat → State → Result
  | 0, s => .next s
  | n + 1, s =>
    match step s with
    | .next s' => runSteps n s'
    | .fault r => .fault r
    | .refused r => .refused r

/-- The next `n` steps are pinned to main-line code: no other agent's step comes between (95 "no other step"). -/
def State.pinMain (s : State) (n : Nat) : State := { s with schedule := List.replicate n .main }

/-- A finite run through the given choices, each enabled when it is taken. -/
def RunsBy : List Choice → State → State → Prop
  | [], s, s' => s' = s
  | c :: cs, s, s' => enabled s c = true ∧ ∃ t, take c s.consume = .next t ∧ RunsBy cs t s'

/-- Two choices are one step of one agent up to the draw it carries (R8, R10). -/
def Choice.sameStep : Choice → Choice → Bool
  | .isrExt _, .isrExt _ => true
  | .wdtTick _, .wdtTick _ => true
  | c, d => c == d

/-- The steps weak fairness speaks of: all but EXT_REQ and OSC_CHANGE (R9, R305). -/
def Choice.fair : Choice → Bool
  | .oscChange => false
  | .extReq => false
  | .main => true
  | .nmiEntry => true
  | .nmiStep => true
  | .isrHb => true
  | .isrSym => true
  | .isrExt _ => true
  | .tickHb => true
  | .tickSym => true
  | .wdtTick _ => true

/-- An infinite run: state `σ n` and the choice `χ n` taken there (R9). -/
def InfiniteRun (σ : Nat → State) (χ : Nat → Choice) : Prop :=
  ∀ n, enabled (σ n) (χ n) = true ∧ take (χ n) (σ n).consume = .next (σ (n + 1))

/-- Weak fairness (R9): a fair step that stays enabled from some point on is taken at or after every point. -/
def WeaklyFair (σ : Nat → State) (χ : Nat → Choice) : Prop :=
  ∀ c : Choice, c.fair = true → ∀ n, (∀ m, n ≤ m → enabled (σ m) c = true) → ∃ m, n ≤ m ∧ (χ m).sameStep c = true

/-- How many of the choices are watchdog ticks. -/
def wdtTicks (cs : List Choice) : Nat := cs.countP (fun c => c.sameStep (.wdtTick false))

/-- The state R280 gives a command that raises a model fault: the fault recorded with the `pc` and the word, its event
appended, nothing else. -/
def State.faulted (s : State) (code : FaultCode) (w : Option Word) : State :=
  { s with fault := some ⟨code, s.pc, w⟩, history := s.history ++ [⟨.cpu, .fault code⟩] }

/-! ### The opcode table -/

/-- One row of opcode_table.json: a word `w` is the row's when `w & mask = value` (R113). -/
structure OpcodeRow where
  mask : Word
  value : Word
deriving DecidableEq, Repr

/-- The rows of opcode_table.json in its order. -/
def opcodeRows : List OpcodeRow :=
  [⟨0xFFFFFFFF, 0x01000000⟩, ⟨0xFFFFFFFF, 0x02000000⟩, ⟨0xFFFFFFFF, 0x03000000⟩, ⟨0xFFFFFFFF, 0x03010000⟩,
    ⟨0xFFFFFFFF, 0x03020000⟩, ⟨0xFFFFFFFF, 0x03030000⟩, ⟨0xFFFFFFFF, 0x04000000⟩, ⟨0xFFFF0000, 0x05000000⟩,
    ⟨0xFFFF0000, 0x06000000⟩, ⟨0xFFFFFFFF, 0x07000000⟩, ⟨0xFFFFFFFF, 0x08000000⟩, ⟨0xFFF8FFFF, 0x09000000⟩,
    ⟨0xFFF8FFFF, 0x0A000000⟩, ⟨0xFFFFFFFF, 0x0B000000⟩, ⟨0xFFFFFFFF, 0x0C000000⟩, ⟨0xFFF0FFFF, 0x20000000⟩,
    ⟨0xFFFF0000, 0x30000000⟩, ⟨0xFF000000, 0x31000000⟩, ⟨0xFF000000, 0x32000000⟩, ⟨0xFFFFFFFF, 0x3F000000⟩]

/-- The row of each command, counted from 0 in the table's order. -/
def rowOf : Instr → Nat
  | .initHw => 0
  | .feedWdt => 1
  | .cfgGpsDisabled => 2
  | .cfgGpsEnabled => 3
  | .cfgRfDisabled => 4
  | .cfgRfEnabled => 5
  | .sleep => 6
  | .delayMs _ => 7
  | .delayUs _ => 8
  | .resetSym => 9
  | .flagsRead => 10
  | .flagsClear _ => 11
  | .flagsXchg _ => 12
  | .irqOff => 13
  | .irqOn => 14
  | .regRead _ => 15
  | .jmp _ => 16
  | .bz _ _ => 17
  | .bnz _ _ => 18
  | .halt => 19

/-! ### What is observed of a module -/

/-- `cfg_obs(m)` (R180): rail, pins, reset line, and the configuration of a released interface only. -/
structure CfgObs where
  rail : Option Rail
  pinmux : Option PinMux
  serRst : Option SerReset
  cfg : Option SerCfg
deriving DecidableEq, Repr

/-- The observed configuration of a module (R180, D23). -/
def cfgObs (x : ModuleUnit) : CfgObs where
  rail := x.rail
  pinmux := x.pinmux
  serRst := x.serRst
  cfg := if x.serRst = some .released then x.serCfg else none

/-- The configuration R180 gives for each target state. -/
def targetObs (p : Params) (m : ModuleId) : ModState → CfgObs
  | .disabled => ⟨some .off, some .parked, some .held, none⟩
  | .enabled => ⟨some .on, some .serial, some .released, some (p.serialCfg m)⟩

/-! ### What a history says -/

/-- How far one record moves the periodicity ledger of a timer: the base and the number of interrupt steps since (R201, R203). -/
def ledgerStep (p : Params) (t : TimerId) (acc : Option (Word × Nat)) (r : Record) : Option (Word × Nat) :=
  match r.event with
  | .timerInit u => if u = t then some (p.first t, 0) else acc
  | .symResetCcr => if t = .sym then some (0, 0) else acc
  | .isr u _ => if u = t then acc.map (fun bn => (bn.1, bn.2 + 1)) else acc
  | .wdtReset => none
  | _ => acc

/-- The ledger of a timer after a history. -/
def ledger (p : Params) (t : TimerId) (h : List Record) : Option (Word × Nat) := h.foldl (ledgerStep p t) none

/-- `base +_W (N · INC mod 2^W)` (R201, R203). -/
def periodicValue (p : Params) (t : TimerId) (bn : Word × Nat) : Word :=
  BitVec.ofNat 32 ((bn.1.toNat + bn.2 * (p.increment t).toNat) % 2 ^ p.width t)

/-- Every NMI_EXIT among the CPU's own events comes right after FAULT_CHECK(NMI, 0) (R291, 95 E5); `last` is the CPU event before. -/
def nmiExitsFollowClearCheck : Option Event → List Record → Bool
  | _, [] => true
  | last, r :: rest =>
    if r.agent = .cpu then
      (r.event != .nmiExit || last == some (.faultCheck .nmi false)) && nmiExitsFollowClearCheck (some r.event) rest
    else nmiExitsFollowClearCheck last rest

/-- How one record moves the last fault-flag event of main-line code (R181), which a reset makes one forget. -/
def lastMainFaultStep (last : Option Event) (r : Record) : Option Event :=
  match r.event with
  | .faultClear .main => some r.event
  | .faultCheck .main _ => some r.event
  | .wdtReset => none
  | _ => last

/-- The last fault-flag event of main-line code in a history (R181). -/
def lastMainFaultEvent (h : List Record) : Option Event := h.foldl lastMainFaultStep none

/-- Every FAULT_IE_SET comes after FAULT_CHECK(MAIN, 0) with no other fault-flag event of main-line code between (R181). -/
def armedAfterClearCheck (h : List Record) : Prop :=
  ∀ before r after, h = before ++ r :: after → r.event = .faultIeSet →
    lastMainFaultEvent before = some (.faultCheck .main false)

/-! ### Invariants -/

/-- Position of a micro-step in INIT_HW (R131). -/
def InitStep.rank : InitStep → Nat
  | .i0 => 0
  | .i1 => 1
  | .i2 => 2
  | .i3 .d1 => 3
  | .i3 .d2 => 4
  | .i3 .d3 => 5
  | .i3 .s => 6
  | .i4 .d1 => 7
  | .i4 .d2 => 8
  | .i4 .d3 => 9
  | .i4 .s => 10
  | .i5 => 11
  | .i6 => 12
  | .i7 => 13

/-- How many micro-steps of INIT_HW have been done since reset, 14 once it is complete. -/
def initProgress (s : State) : Nat :=
  if s.initDone then 14
  else
    match s.phase with
    | .init k => k.rank
    | _ => 0

/-- What holds of a timer at every moment (R48 to R50): its registers are UNKNOWN exactly while it is stopped and below `2^W` once
it runs; its enable goes with `run`; only a running timer has a match pending. -/
structure TimerInv (w : Nat) (x : Timer) : Prop where
  known : x.run = true → ∃ c r, x.cnt = some c ∧ x.ccr = some r ∧ c.toNat < 2 ^ w ∧ r.toNat < 2 ^ w
  stopped : x.run = false → x.cnt = none ∧ x.ccr = none
  enable : x.ie = x.run
  pending : x.pend = true → x.run = true

/-- What holds of the machine between any two steps. -/
structure Inv (s : State) : Prop where
  /-- R5 -/
  params : s.params.valid = true
  /-- R81 -/
  program : programWf s.program = true
  /-- R32 -/
  pcRange : s.pc ≤ maxProgram
  /-- R32: during a multi-step command `pc` holds the index of that command -/
  pcHeld : s.phase ≠ .fetch → s.pc < s.program.length
  /-- R48 to R50 -/
  hb : TimerInv s.params.wHb s.hb
  /-- R48 to R50 -/
  sym : TimerInv s.params.wSym s.sym
  /-- R296 -/
  wdt : s.wdtCnt.toNat < s.params.wdtTimeout.toNat
  /-- R292 -/
  osc : s.oscOk = false → s.oscFault = true
  /-- R130: before INIT_HW completes nothing is masked in, nothing is pending, the CPU neither sleeps nor handles an NMI -/
  boot : s.initDone = false →
    s.gie = false ∧ s.faultIe = false ∧ s.extPend = false ∧ s.mode ≠ .sleep ∧ s.ctx = .main
  /-- R130, R140 -/
  initPhase : ∀ k, s.phase = .init k → s.initDone = false
  /-- R267 -/
  corePhase : s.initDone = false → s.phase = .fetch ∨ ∃ k, s.phase = .init k
  /-- R230 -/
  sleeping : s.mode = .sleep → s.gie = true ∧ s.phase = .fetch
  /-- R289 -/
  nmi : inNmi s = true → s.faultIe = true
  /-- R170: the loop waits for an oscillator that O1 has started -/
  oscLoop : ∀ k, s.phase = .rfOsc k → k ≠ .o1 → s.xoscOn = true
  /-- R170, R173 -/
  armed : s.faultIe = true → s.xoscOn = true
  /-- R133 -/
  clocks : s.clkConfigured = decide (1 < initProgress s) ∧
    s.clkCfg = if 1 < initProgress s then some s.params.clkCfg else none
  /-- R134 -/
  pins : s.unusedParked = decide (2 < initProgress s)
  /-- R134: the outputs are UNKNOWN until INIT_HW drives them, and known from then on -/
  rails : ∀ m, (s.moduleUnit m).rail.isSome = decide (2 < initProgress s)
  /-- R163 -/
  gpsReset : s.gps.serRst.isSome = decide (4 < initProgress s)
  /-- R164 -/
  gpsPins : s.gps.pinmux.isSome = decide (5 < initProgress s)
  /-- R163 -/
  rfReset : s.rf.serRst.isSome = decide (8 < initProgress s)
  /-- R164 -/
  rfPins : s.rf.pinmux.isSome = decide (9 < initProgress s)
  /-- R137 -/
  hbRun : s.hb.run = decide (11 < initProgress s)
  /-- R138 -/
  symRun : s.sym.run = decide (12 < initProgress s)

/-- The disabled configuration up to a micro-step of the disable sequence: what the micro-steps before it have done (R161). -/
def disabledUpTo (x : ModuleUnit) : DisableStep → Prop
  | .d1 => True
  | .d2 => x.rail = some .off
  | .d3 => x.rail = some .off ∧ x.serRst = some .held
  | .s => x.rail = some .off ∧ x.serRst = some .held ∧ x.pinmux = some .parked

/-- The enabled configuration up to a micro-step of the enable sequence (R165). -/
def enabledUpTo (c : SerCfg) (x : ModuleUnit) : EnableStep → Prop
  | .e1 => True
  | .e2 => x.pinmux = some .serial
  | .e3 => x.pinmux = some .serial ∧ x.serRst = some .held ∧ x.serCfg = some c
  | .e4 => x.pinmux = some .serial ∧ x.serRst = some .released ∧ x.serCfg = some c
  | .s => x.pinmux = some .serial ∧ x.serRst = some .released ∧ x.serCfg = some c ∧ x.rail = some .on

/-- A module whose outputs are those its Module State names (R174, R180). -/
def settled (p : Params) (m : ModuleId) (x : ModuleUnit) : Prop := cfgObs x = targetObs p m x.mstate

/-- What holds of a module's outputs at each phase (R161 to R174, R180, R182): settled outside its own sequences once INIT_HW is
complete, and inside one the outputs its micro-steps have driven so far. -/
def moduleFacts (s : State) (m : ModuleId) : Prop :=
  let x := s.moduleUnit m
  match s.phase with
  | .disable m' k => if m' = m then disabledUpTo x k else settled s.params m x
  | .enable m' k => if m' = m then enabledUpTo (s.params.serialCfg m) x k else settled s.params m x
  | .rfOsc _ => if m = .rf then enabledUpTo (s.params.serialCfg m) x .s else settled s.params m x
  | .init (.i3 k) => if m = .gps then disabledUpTo x k else True
  | .init (.i4 k) => if m = .gps then settled s.params m x ∧ x.mstate = .disabled else disabledUpTo x k
  | .init .i5 => settled s.params m x ∧ x.mstate = .disabled
  | .init .i6 => settled s.params m x ∧ x.mstate = .disabled
  | .init .i7 => settled s.params m x ∧ x.mstate = .disabled
  | .init _ => True
  | .fetch => s.initDone = true → settled s.params m x
  | .symReset => settled s.params m x

/-- Idempotent convergence as an invariant (R180): both modules' facts. -/
def ModuleInv (s : State) : Prop := ∀ m, moduleFacts s m

/-- The periodicity laws as an invariant (R201, R203): each compare register is the value its ledger gives. -/
def PeriodInv (s : State) : Prop :=
  ∀ t, (s.timer t).ccr = (ledger s.params t s.history).map (periodicValue s.params t)

/-- The RF enable's oscillator check as an invariant (R181, R172, R173): past O3 the last check of main-line code read 0. -/
def ArmingInv (s : State) : Prop :=
  armedAfterClearCheck s.history ∧
    (s.phase = .rfOsc .o4 → lastMainFaultEvent s.history = some (.faultCheck .main false))

/-- The oscillator fault flag as hardware (R292). -/
def OscInv (s : State) : Prop := s.oscOk = false → s.oscFault = true

end Sys2Proof.Machine
end

