-- ==== Sys2Proof/Certificates/Slice0/Obligations.lean ====
section
/-!
DEFINITION. The statements for the provers. Each docstring names the rules it rests on; an equation `exec i s = .next { s with … }`
states the command's result, its completion and its frame at once: every field it does not name is unchanged.
-/

open Sys2Proof Sys2Proof.Machine

/-! ### Encoding -/

/-- R100, R106, R113: the word of a well-formed command decodes to that command, with every operand at every value. -/
def Obligations.DecodeOfEncodedCommand : Prop :=
  ∀ i : Instr, i.wellFormed = true → decode (encode i) = .ok i

/-- R100, R107, R113: a legal word is the one encoding of the command it decodes to, which is well formed. -/
def Obligations.EncodeOfDecodedWord : Prop :=
  ∀ (w : Word) (i : Instr), decode w = .ok i → encode i = w ∧ i.wellFormed = true

/-- R113, R110: a word decodes to a command exactly when it matches a row of opcode_table.json, and then to that row's command. -/
def Obligations.DecoderFollowsTheOpcodeTable : Prop :=
  (∀ (w : Word) (k : Nat) (r : OpcodeRow), opcodeRows[k]? = some r → w &&& r.mask = r.value →
      ∃ i, decode w = .ok i ∧ rowOf i = k) ∧
    ∀ w : Word, (∀ r ∈ opcodeRows, w &&& r.mask ≠ r.value) → ∃ e, decode w = .error e

/-- R100 to R106: words written out from the encoding decode to the commands they stand for. -/
def Obligations.SpecWordsDecode : Prop :=
  decode 0x01000000 = .ok .initHw ∧ decode 0x03030000 = .ok .cfgRfEnabled ∧
    decode 0x0500FFFF = .ok (.delayMs 65535) ∧ decode 0x09030000 = .ok (.flagsClear 0b011) ∧
    decode 0x200F0000 = .ok (.regRead 0x0F) ∧ decode 0x32040000 = .ok (.bnz 0x04 0) ∧
    decode 0x3F000000 = .ok .halt

/-- R83, R112: four stored bytes are one command word, least significant byte first, and the bytes after them are left. -/
def Obligations.StoredBytesDecodeAsTheirWord : Prop :=
  ∀ (w : Word) (i : Instr) (rest : List Byte), decode w = .ok i →
    decodeBytes (bytesOfWord w ++ rest) = .ok (i, rest)

/-! ### Steps, fetch and model faults -/

/-- R260: where the scheduler takes main-line code at a command boundary and the word at `pc` decodes to `i`, the step is `exec i`,
on the state whose pinned choice is used up and whose moment has passed (the model's own bookkeeping, log entry 7). -/
def Obligations.StepRunsTheDecodedCommand : Prop :=
  ∀ (s : State) (w : Word) (i : Instr), pick s = some .main → s.phase = .fetch →
    s.program[s.pc]? = some w → decode w = .ok i →
    step s = exec i { s with schedule := s.schedule.tail, moment := s.moment + 1 }

/-- R9, log entry 7: an enabled choice pinned first is the step taken. -/
def Obligations.PinnedEnabledChoiceIsTaken : Prop :=
  ∀ (s : State) (c : Choice), enabled s c = true →
    step { s with schedule := c :: s.schedule } = take c { s with moment := s.moment + 1 }

/-- R9: whatever the scheduler does, a step that answers a next state is the transition of an enabled choice. -/
def Obligations.StepIsAnEnabledTransition : Prop :=
  ∀ s s' : State, step s = .next s' →
    ∃ c, enabled s c = true ∧ take c { s with schedule := s.schedule.tail, moment := s.moment + 1 } = .next s'

/-- R39, R266, R280: no agent has a step exactly when a model fault is recorded or the run has ended, and step then stops. -/
def Obligations.NoAgentStepsAfterFaultOrHalt : Prop :=
  ∀ s : State,
    (pick s = none ↔ s.fault ≠ none ∨ s.mode = .halted) ∧
    (∀ f, s.fault = some f → step s = .fault (.modelFault f)) ∧
    (s.fault = none → s.mode = .halted → step s = .fault .halted)

/-- R110, R265, R280, R282: a fetch at or beyond the end of PROGRAM records PcOutOfProgram; an illegal word records IllegalCommand with
that word, before INIT_HW too. Neither changes any field but the fault and the history. -/
def Obligations.FetchFaultsBeforeExecution : Prop :=
  ∀ s : State, s.phase = .fetch →
    (s.program.length ≤ s.pc → mainStep s = .next (s.faulted .pcOutOfProgram none)) ∧
    ∀ (w : Word) (e : Illegal), s.program[s.pc]? = some w → decode w = .error e →
      mainStep s = .next (s.faulted .illegalCommand (some w))

/-- R267: every core command but INIT_HW, executed while `init_done` = 0, records NotInitialised and has no other effect; no sequencer
command ever does. -/
def Obligations.OrderOfUseFaults : Prop :=
  ∀ (i : Instr) (s : State),
    (i.commandClass = .core → i ≠ .initHw → s.initDone = false →
      exec i s = .next (s.faulted .notInitialised (some (encode i)))) ∧
    (i.commandClass = .seq → s.fault = none →
      ∃ t, exec i s = .next t ∧ ∀ f, t.fault = some f → f.code ≠ .notInitialised)

/-- R280, R282, R295: a model fault is recorded only by main-line code at a command boundary, with the `pc` of its command, and the
step that records it changes nothing but the fault and the history. -/
def Obligations.ModelFaultsArePrecise : Prop :=
  ∀ (s s' : State) (f : ModelFault), s.fault = none → step s = .next s' → s'.fault = some f →
    pick s = some .main ∧ s.phase = .fetch ∧ f.pc = s.pc ∧
      s' = { s with
        schedule := s.schedule.tail
        moment := s.moment + 1
        fault := some f
        history := s.history ++ [⟨.cpu, .fault f.code⟩] }

/-! ### Commands -/

/-- R234. -/
def Obligations.FeedWdtClearsTheCount : Prop :=
  decode 0x02000000 = .ok .feedWdt ∧
  ∀ s : State,
    (s.initDone = true →
      exec .feedWdt s = .next { s with wdtCnt := 0, pc := s.pc + 1, history := s.history ++ [⟨.cpu, .wdtFeed⟩] }) ∧
    (s.initDone = false → exec .feedWdt s = .next (s.faulted .notInitialised (some 0x02000000)))

/-- R230: SLEEP enables maskable interrupts and enters sleep with `pc` at the next command. -/
def Obligations.SleepEntersSleepWithInterruptsOn : Prop :=
  decode 0x04000000 = .ok .sleep ∧
  ∀ s : State,
    (s.initDone = true →
      exec .sleep s = .next { s with
        gie := true
        mode := .sleep
        pc := s.pc + 1
        history := s.history ++ [⟨.cpu, .sleep⟩] }) ∧
    (s.initDone = false → exec .sleep s = .next (s.faulted .notInitialised (some 0x04000000)))

/-- R102, R232, R233: a delay records its count, zero-extended to 32 bits, and changes no other state. -/
def Obligations.DelaysChangeOnlyPcAndHistory : Prop :=
  ∀ n : BitVec 16,
    decode (0x05#8 ++ (0x00#8 ++ n)) = .ok (.delayMs n) ∧ decode (0x06#8 ++ (0x00#8 ++ n)) = .ok (.delayUs n) ∧
    ∀ s : State,
      (s.initDone = true →
        exec (.delayMs n) s = .next { s with pc := s.pc + 1, history := s.history ++ [⟨.cpu, .delay .ms (BitVec.ofNat 32 n.toNat)⟩] } ∧
        exec (.delayUs n) s = .next { s with pc := s.pc + 1, history := s.history ++ [⟨.cpu, .delay .us (BitVec.ofNat 32 n.toNat)⟩] }) ∧
      (s.initDone = false →
        exec (.delayMs n) s = .next (s.faulted .notInitialised (some (0x05#8 ++ (0x00#8 ++ n)))) ∧
        exec (.delayUs n) s = .next (s.faulted .notInitialised (some (0x06#8 ++ (0x00#8 ++ n)))))

/-- R236: FLAGS_READ copies the flags, zero-extended, to the accumulator. -/
def Obligations.FlagsReadCopiesTheFlags : Prop :=
  decode 0x08000000 = .ok .flagsRead ∧
  ∀ s : State,
    (s.initDone = true →
      exec .flagsRead s = .next { s with
        acc := some (BitVec.ofNat 32 s.evflags.toNat)
        pc := s.pc + 1
        history := s.history ++ [⟨.cpu, .flagsRead s.evflags⟩] }) ∧
    (s.initDone = false → exec .flagsRead s = .next (s.faulted .notInitialised (some 0x08000000)))

/-- R237: the flags in the mask become 0, the others keep their value, and `acc` is not written. -/
def Obligations.FlagsClearClearsTheMask : Prop :=
  ∀ mask : BitVec 3,
    decode (0x09#8 ++ ((0#5 ++ mask) ++ 0#16)) = .ok (.flagsClear mask) ∧
    ∀ s : State,
      (s.initDone = true →
        ∃ v : BitVec 3, (∀ n, n < 3 → v.getLsbD n = (s.evflags.getLsbD n && !mask.getLsbD n)) ∧
          exec (.flagsClear mask) s = .next { s with
            evflags := v
            pc := s.pc + 1
            history := s.history ++ [⟨.cpu, .flagsClear mask⟩] }) ∧
      (s.initDone = false →
        exec (.flagsClear mask) s = .next (s.faulted .notInitialised (some (0x09#8 ++ ((0#5 ++ mask) ++ 0#16)))))

/-- R238: FLAGS_XCHG returns the masked flags in the accumulator and clears them, in one step. -/
def Obligations.FlagsXchgReadsAndClears : Prop :=
  ∀ mask : BitVec 3,
    decode (0x0A#8 ++ ((0#5 ++ mask) ++ 0#16)) = .ok (.flagsXchg mask) ∧
    ∀ s : State,
      (s.initDone = true →
        ∃ v w : BitVec 3, (∀ n, n < 3 → v.getLsbD n = (s.evflags.getLsbD n && mask.getLsbD n)) ∧
          (∀ n, n < 3 → w.getLsbD n = (s.evflags.getLsbD n && !mask.getLsbD n)) ∧
          exec (.flagsXchg mask) s = .next { s with
            evflags := w
            acc := some (BitVec.ofNat 32 v.toNat)
            pc := s.pc + 1
            history := s.history ++ [⟨.cpu, .flagsXchg mask v⟩] }) ∧
      (s.initDone = false →
        exec (.flagsXchg mask) s = .next (s.faulted .notInitialised (some (0x0A#8 ++ ((0#5 ++ mask) ++ 0#16)))))

/-- R239, R240. -/
def Obligations.IrqCommandsWriteOnlyGie : Prop :=
  decode 0x0B000000 = .ok .irqOff ∧ decode 0x0C000000 = .ok .irqOn ∧
  ∀ s : State,
    (s.initDone = true →
      exec .irqOff s = .next { s with gie := false, pc := s.pc + 1 } ∧
      exec .irqOn s = .next { s with gie := true, pc := s.pc + 1 }) ∧
    (s.initDone = false →
      exec .irqOff s = .next (s.faulted .notInitialised (some 0x0B000000)) ∧
      exec .irqOn s = .next (s.faulted .notInitialised (some 0x0C000000)))

/-- R261: REG_READ copies the register to the accumulator and has no side effect, or records ReadUnspecified where a field of the
register is UNKNOWN; an index from 0x10 is no legal word; it is legal before INIT_HW. -/
def Obligations.RegReadCopiesTheRegister : Prop :=
  ∀ idx : BitVec 8,
    (0x10 ≤ idx.toNat → ∃ e, decode (0x20#8 ++ (idx ++ 0#16)) = .error e) ∧
    (idx.toNat < 0x10 →
      decode (0x20#8 ++ (idx ++ 0#16)) = .ok (.regRead idx) ∧
      ∃ r, regOfIndex idx = some r ∧
        ∀ s : State,
          (∀ v, readReg s r = some v → exec (.regRead idx) s = .next { s with acc := some v, pc := s.pc + 1 }) ∧
          (readReg s r = none →
            exec (.regRead idx) s = .next (s.faulted .readUnspecified (some (0x20#8 ++ (idx ++ 0#16))))))

/-- R69, log entry 15: the instruction of a reserved index, which no word decodes to, records IllegalCommand where it is run. -/
def Obligations.RegReadOfAReservedIndexFaults : Prop :=
  ∀ (s : State) (idx : BitVec 8), 0x10 ≤ idx.toNat →
    exec (.regRead idx) s = .next (s.faulted .illegalCommand (some (0x20#8 ++ (idx ++ 0#16))))

/-- R31, R60 to R68: what each register index reads, as a number, unlisted bits 0; and that it has no value exactly when one of its
fields is UNKNOWN. -/
def Obligations.RegisterMapContents : Prop :=
  ∀ s : State,
    (regOfIndex 0x00).bind (readReg s) = some (BitVec.ofNat 32 s.evflags.toNat) ∧
    (∀ v w idx, (v, w, idx) ∈ [(s.hb.cnt, s.params.wHb, 0x01#8), (s.hb.ccr, s.params.wHb, 0x02#8),
        (s.sym.cnt, s.params.wSym, 0x04#8), (s.sym.ccr, s.params.wSym, 0x05#8)] →
      (∀ c : Word, v = some c → (regOfIndex idx).bind (readReg s) = some (BitVec.ofNat 32 (c.toNat % 2 ^ w))) ∧
      ((regOfIndex idx).bind (readReg s) = none ↔ v = none)) ∧
    (regOfIndex 0x03).bind (readReg s)
      = some (BitVec.ofNat 32 (s.hb.run.toNat + 2 * s.hb.ie.toNat + 4 * s.hb.pend.toNat)) ∧
    (regOfIndex 0x06).bind (readReg s)
      = some (BitVec.ofNat 32 (s.sym.run.toNat + 2 * s.sym.ie.toNat + 4 * s.sym.pend.toNat)) ∧
    (regOfIndex 0x07).bind (readReg s)
      = some (BitVec.ofNat 32 (s.oscFault.toNat + 2 * s.faultIe.toNat + 4 * s.xoscOn.toNat)) ∧
    (regOfIndex 0x08).bind (readReg s) = some (BitVec.ofNat 32 s.clkConfigured.toNat) ∧
    (∀ m idx, (m, idx) ∈ [(s.gps, 0x09#8), (s.rf, 0x0A#8)] →
      (∀ rail rst mux, m.rail = some rail → m.serRst = some rst → m.pinmux = some mux →
        (regOfIndex idx).bind (readReg s)
          = some (BitVec.ofNat 32 ((decide (m.mstate = .enabled)).toNat + 2 * (decide (rail = .on)).toNat
              + 4 * (decide (rst = .held)).toNat + 8 * (decide (mux = .serial)).toNat))) ∧
      ((regOfIndex idx).bind (readReg s) = none ↔ m.rail = none ∨ m.serRst = none ∨ m.pinmux = none)) ∧
    (∀ m idx, (m, idx) ∈ [(s.gps, 0x0B#8), (s.rf, 0x0C#8)] →
      (∀ c, m.serCfg = some c → (regOfIndex idx).bind (readReg s)
        = some (BitVec.ofNat 32 (c.setting.br.toNat + 65536 * c.setting.modulation.toNat + 16777216 * c.clk.toNat))) ∧
      ((regOfIndex idx).bind (readReg s) = none ↔ m.serCfg = none)) ∧
    (regOfIndex 0x0D).bind (readReg s) = some s.wdtCnt ∧
    (regOfIndex 0x0E).bind (readReg s) = some (BitVec.ofNat 32 (s.gie.toNat + 2 * s.initDone.toNat)) ∧
    (regOfIndex 0x0F).bind (readReg s) = some (BitVec.ofNat 32 s.unusedParked.toNat)

/-- R330, the power-on column, for every field whose value the spec gives; FAULT is forced while the drawn `osc_ok` is 0. -/
def Obligations.PowerOnResetLeavesTheTabledValues : Prop :=
  let s := State.reset
  (s.pc = 0 ∧ s.acc = none ∧ s.gie = false ∧ s.mode = .active ∧ s.ctx = .main ∧ s.phase = .fetch ∧ s.initDone = false ∧
    s.fault = none ∧ s.evflags = 0b000 ∧ s.history = []) ∧
  (s.clkCfg = none ∧ s.clkConfigured = false ∧ s.unusedParked = false ∧ s.faultIe = false ∧ s.xoscOn = false ∧
    s.wdtCnt = 0 ∧ s.extPend = false) ∧
  (∀ m, s.moduleUnit m = ⟨.disabled, none, none, none, none⟩) ∧ (∀ t, s.timer t = ⟨none, none, false, false, false⟩) ∧
  (s.oscOk || s.oscFault) = true

/-- R330: after power-on reset EVFLAGS, HB_CTL, SYM_CTL, CLK, CPU, PINS and WDT_CNT read 0, OSC reads FAULT alone, and the other eight
registers are UNKNOWN. -/
def Obligations.RegisterReadsAfterReset : Prop :=
  (∀ r ∈ [RegName.evflags, .hbCtl, .symCtl, .clk, .cpu, .pins, .wdtCnt], readReg State.reset r = some 0) ∧
  readReg State.reset .osc = some (BitVec.ofNat 32 State.reset.oscFault.toNat) ∧
  ∀ r ∈ [RegName.hbCnt, .hbCcr, .symCnt, .symCcr, .modGps, .modRf, .serCfgGps, .serCfgRf],
    readReg State.reset r = none

/-- R262, R266: JMP writes only `pc`; HALT ends the run with `pc` kept, and after it no agent has a step. Both are legal before
INIT_HW. -/
def Obligations.JumpAndHalt : Prop :=
  decode 0x3F000000 = .ok .halt ∧
  ∀ (s : State) (target : BitVec 16),
    decode (0x30#8 ++ (0x00#8 ++ target)) = .ok (.jmp target) ∧
    exec (.jmp target) s = .next { s with pc := target.toNat } ∧
    exec .halt s = .next { s with mode := .halted, history := s.history ++ [⟨.cpu, .halt⟩] } ∧
    ∀ t c, exec .halt s = .next t → enabled t c = false

/-- R263, R264: on an unwritten accumulator both record UnwrittenAcc. Else BZ goes to its target exactly when no bit of `acc[7:0]` under
the mask is set, BNZ exactly when one is; `pc` is the only field either writes, and bits 31:8 of `acc` are never tested. -/
def Obligations.BranchesTestTheMaskedAccumulator : Prop :=
  ∀ (mask : BitVec 8) (target : BitVec 16),
    decode (0x31#8 ++ (mask ++ target)) = .ok (.bz mask target) ∧
    decode (0x32#8 ++ (mask ++ target)) = .ok (.bnz mask target) ∧
    ∀ s : State,
      (s.acc = none →
        exec (.bz mask target) s = .next (s.faulted .unwrittenAcc (some (0x31#8 ++ (mask ++ target)))) ∧
        exec (.bnz mask target) s = .next (s.faulted .unwrittenAcc (some (0x32#8 ++ (mask ++ target))))) ∧
      ∀ a : Word, s.acc = some a →
        ((∃ n, n < 8 ∧ a.getLsbD n = true ∧ mask.getLsbD n = true) →
          exec (.bz mask target) s = .next { s with pc := s.pc + 1 } ∧
          exec (.bnz mask target) s = .next { s with pc := target.toNat }) ∧
        ((∀ n, n < 8 → a.getLsbD n = true → mask.getLsbD n = false) →
          exec (.bz mask target) s = .next { s with pc := target.toNat } ∧
          exec (.bnz mask target) s = .next { s with pc := s.pc + 1 })

/-- R130, R160: the entry steps of INIT_HW and of the four CFG_MODULE commands change only the phase. -/
def Obligations.SequenceEntriesChangeOnlyThePhase : Prop :=
  ∀ s : State,
    (s.initDone = false → exec .initHw s = .next { s with phase := .init .i0 }) ∧
    (s.initDone = true →
      exec .cfgGpsDisabled s = .next { s with phase := .disable .gps .d1 } ∧
      exec .cfgGpsEnabled s = .next { s with phase := .enable .gps .e1 } ∧
      exec .cfgRfDisabled s = .next { s with phase := .disable .rf .d1 } ∧
      exec .cfgRfEnabled s = .next { s with phase := .enable .rf .e1 })

/-- R140: the clock tree is configured only by INIT_HW's own micro-step; an INIT_HW with `init_done` = 1 records ReInit and changes no
other state; `init_done` returns to 0 only by reset. -/
def Obligations.ClocksAreConfiguredOnce : Prop :=
  (∀ s : State, s.initDone = true → exec .initHw s = .next (s.faulted .reInit (some 0x01000000))) ∧
  ∀ s s' : State, step s = .next s' →
    (s'.clkCfg = s.clkCfg ∨ (s.phase = .init .i1 ∧ s'.clkCfg = some s.params.clkCfg) ∨
      s'.history = s.history ++ [⟨.wdt, .wdtReset⟩]) ∧
    (s.initDone = true → s'.initDone = true ∨ s'.history = s.history ++ [⟨.wdt, .wdtReset⟩])

/-- R205: the entry step of RESET_SYM zeroes the symbol compare register; W2 forces the counter to its maximum and ends the command;
neither touches `pend_SYM` or any flag, and neither compares. -/
def Obligations.ResetSymWritesCompareThenCounter : Prop :=
  decode 0x07000000 = .ok .resetSym ∧
  ∀ s : State,
    (s.initDone = true →
      exec .resetSym s = .next { s with
        sym := { s.sym with ccr := some 0 }
        phase := .symReset
        history := s.history ++ [⟨.cpu, .symResetCcr⟩] }) ∧
    (s.initDone = false → exec .resetSym s = .next (s.faulted .notInitialised (some 0x07000000))) ∧
    (s.phase = .symReset →
      mainStep s = .next { s with
        sym := { s.sym with cnt := some (BitVec.ofNat 32 (2 ^ s.params.wSym - 1)) }
        pc := s.pc + 1
        phase := .fetch
        history := s.history ++ [⟨.cpu, .symResetCnt⟩] })

/-! ### Multi-step commands run to their end -/

/-- R130 to R139, R142: from an uninitialised state at an INIT_HW word, the entry step and fourteen micro-steps of main-line code with
no other step between leave exactly the state of R142. -/
def Obligations.InitHwReachesItsFinalState : Prop :=
  ∀ s : State, s.fault = none → s.mode = .active → s.ctx = .main → s.phase = .fetch → s.initDone = false →
    s.program[s.pc]? = some 0x01000000 →
    runSteps 15 (s.pinMain 15) = .next { s with
      schedule := []
      moment := s.moment + 15
      pc := s.pc + 1
      initDone := true
      evflags := 0b000
      clkCfg := some s.params.clkCfg
      clkConfigured := true
      unusedParked := true
      gps := { s.gps with mstate := .disabled, rail := some .off, serRst := some .held, pinmux := some .parked }
      rf := { s.rf with mstate := .disabled, rail := some .off, serRst := some .held, pinmux := some .parked }
      hb := ⟨some 0, some s.params.hbFirst, true, true, false⟩
      sym := ⟨some 0, some s.params.symFirst, true, true, false⟩
      history := s.history ++ [⟨.cpu, .flagsClear 0b111⟩, ⟨.cpu, .clocksSet⟩, ⟨.cpu, .pinsParked⟩,
        ⟨.cpu, .rail .gps .off⟩, ⟨.cpu, .rail .rf .off⟩, ⟨.cpu, .rail .gps .off⟩, ⟨.cpu, .serReset .gps .held⟩,
        ⟨.cpu, .pinmux .gps .parked⟩, ⟨.cpu, .moduleState .gps .disabled⟩, ⟨.cpu, .rail .rf .off⟩,
        ⟨.cpu, .serReset .rf .held⟩, ⟨.cpu, .pinmux .rf .parked⟩, ⟨.cpu, .moduleState .rf .disabled⟩,
        ⟨.cpu, .timerInit .hb⟩, ⟨.cpu, .timerInit .sym⟩] }

/-- R161 to R164, R174, R176, R178: the disable sequence of either module runs rail, interface, pins, record, in that order. -/
def Obligations.DisableSequenceReachesItsFinalState : Prop :=
  ∀ (s : State) (m : ModuleId), s.fault = none → s.mode = .active → s.ctx = .main → s.phase = .fetch → s.initDone = true →
    s.program[s.pc]? = some (match m with | .gps => 0x03000000 | .rf => 0x03020000) →
    runSteps 5 (s.pinMain 5) = .next (State.withModule { s with
      schedule := []
      moment := s.moment + 5
      pc := s.pc + 1
      history := s.history ++ [⟨.cpu, .rail m .off⟩, ⟨.cpu, .serReset m .held⟩, ⟨.cpu, .pinmux m .parked⟩,
        ⟨.cpu, .moduleState m .disabled⟩] } m
      { s.moduleUnit m with mstate := .disabled, rail := some .off, serRst := some .held, pinmux := some .parked })

/-- R165 to R169, R174, R175, R179: the GPS enable sequence runs pins, configuration, release, rail, record, in that order. -/
def Obligations.EnableGpsReachesItsFinalState : Prop :=
  ∀ s : State, s.fault = none → s.mode = .active → s.ctx = .main → s.phase = .fetch → s.initDone = true →
    s.program[s.pc]? = some 0x03010000 →
    ∃ c : SerCfg, c.clk = s.params.serClkGps ∧
      c.setting = s.params.baudDiv (s.params.clockRate s.params.serClkGps) s.params.baudGps ∧
      runSteps 6 (s.pinMain 6) = .next { s with
        schedule := []
        moment := s.moment + 6
        pc := s.pc + 1
        gps := ⟨.enabled, some .on, some .serial, some .released, some c⟩
        history := s.history ++ [⟨.cpu, .pinmux .gps .serial⟩, ⟨.cpu, .serReset .gps .held⟩,
          ⟨.cpu, .serConfig .gps c.clk c.setting.br c.setting.modulation⟩, ⟨.cpu, .serReset .gps .released⟩,
          ⟨.cpu, .rail .gps .on⟩, ⟨.cpu, .moduleState .gps .enabled⟩] }

/-- R165 to R174, R177, R179: with a good oscillator the RF enable sequence also starts the oscillator, clears and checks the fault flag
once, and arms the fault interrupt before it records the state. -/
def Obligations.EnableRfReachesItsFinalState : Prop :=
  ∀ s : State, s.fault = none → s.mode = .active → s.ctx = .main → s.phase = .fetch → s.initDone = true → s.oscOk = true →
    s.program[s.pc]? = some 0x03030000 →
    ∃ c : SerCfg, c.clk = s.params.serClkRf ∧
      c.setting = s.params.baudDiv (s.params.clockRate s.params.serClkRf) s.params.baudRf ∧
      runSteps 10 (s.pinMain 10) = .next { s with
        schedule := []
        moment := s.moment + 10
        pc := s.pc + 1
        rf := ⟨.enabled, some .on, some .serial, some .released, some c⟩
        xoscOn := true
        oscFault := false
        faultIe := true
        history := s.history ++ [⟨.cpu, .pinmux .rf .serial⟩, ⟨.cpu, .serReset .rf .held⟩,
          ⟨.cpu, .serConfig .rf c.clk c.setting.br c.setting.modulation⟩, ⟨.cpu, .serReset .rf .released⟩,
          ⟨.cpu, .rail .rf .on⟩, ⟨.cpu, .xoscStart⟩, ⟨.cpu, .faultClear .main⟩, ⟨.cpu, .faultCheck .main false⟩,
          ⟨.cpu, .faultIeSet⟩, ⟨.cpu, .moduleState .rf .enabled⟩] }

/-- R171, R172, R292: while the oscillator condition is bad the RF loop comes back to O2, any number of times, with nothing changed but
the history, which gains one clear and one check that reads 1 each time round. -/
def Obligations.RfOscillatorLoopHasNoBound : Prop :=
  ∀ (n : Nat) (s : State), s.fault = none → s.mode = .active → s.ctx = .main → s.phase = .rfOsc .o2 →
    s.oscOk = false → s.oscFault = true →
    runSteps (2 * n) (s.pinMain (2 * n)) = .next { s with
      schedule := []
      moment := s.moment + 2 * n
      history := s.history
        ++ (List.replicate n [⟨.cpu, .faultClear .main⟩, ⟨.cpu, .faultCheck .main true⟩]).flatten }

/-! ### Timers and interrupts -/

/-- R190: when a tick is enabled and what it does: the counter advances modulo `2^W` and the pending bit is set exactly at a match; a
match already pending is absorbed; nothing else changes. -/
def Obligations.TickCountsAndMatches : Prop :=
  ∀ s : State,
    (enabled s .tickHb = true ↔ s.hb.run = true ∧ s.fault = none ∧ s.mode ≠ .halted) ∧
    (enabled s .tickSym = true ↔ s.sym.run = true ∧ s.fault = none ∧ s.mode ≠ .halted) ∧
    ∀ c r : Word,
      (s.hb.cnt = some c → s.hb.ccr = some r →
        take .tickHb s = .next { s with
          hb := { s.hb with
            cnt := some (BitVec.ofNat 32 ((c.toNat + 1) % 2 ^ s.params.wHb))
            pend := s.hb.pend || BitVec.ofNat 32 ((c.toNat + 1) % 2 ^ s.params.wHb) == r } }) ∧
      (s.sym.cnt = some c → s.sym.ccr = some r →
        take .tickSym s = .next { s with
          sym := { s.sym with
            cnt := some (BitVec.ofNat 32 ((c.toNat + 1) % 2 ^ s.params.wSym))
            pend := s.sym.pend || BitVec.ofNat 32 ((c.toNat + 1) % 2 ^ s.params.wSym) == r } })

/-- R200: the heartbeat handler takes the request, re-arms by the fixed increment modulo `2^W_HB`, sets HB_DUE and wakes a sleeping CPU
exactly when WAKE_REQ is set. -/
def Obligations.HeartbeatHandlerRearmsFlagsAndWakes : Prop :=
  ∀ (s : State) (c : Word), s.hb.ccr = some c →
    ∃ c' : Word, c' = BitVec.ofNat 32 ((c.toNat + s.params.hbInc.toNat) % 2 ^ s.params.wHb) ∧
      (s.evflags.getLsbD 2 = true → s.mode = .sleep →
        take .isrHb s = .next { s with
          hb := { s.hb with pend := false, ccr := some c' }
          evflags := s.evflags ||| 0b001
          mode := .active
          history := s.history ++ [⟨.cpu, .isr .hb c'⟩, ⟨.cpu, .flagSet 0⟩, ⟨.cpu, .resume⟩] }) ∧
      (s.evflags.getLsbD 2 = false ∨ s.mode ≠ .sleep →
        take .isrHb s = .next { s with
          hb := { s.hb with pend := false, ccr := some c' }
          evflags := s.evflags ||| 0b001
          history := s.history ++ [⟨.cpu, .isr .hb c'⟩, ⟨.cpu, .flagSet 0⟩] })

/-- R202: the symbol handler takes the request, re-arms, sets SYM_DUE and never resumes. -/
def Obligations.SymbolHandlerRearmsAndNeverWakes : Prop :=
  ∀ (s : State) (c : Word), s.sym.ccr = some c →
    ∃ c' : Word, c' = BitVec.ofNat 32 ((c.toNat + s.params.symInc.toNat) % 2 ^ s.params.wSym) ∧
      take .isrSym s = .next { s with
        sym := { s.sym with pend := false, ccr := some c' }
        evflags := s.evflags ||| 0b010
        history := s.history ++ [⟨.cpu, .isr .sym c'⟩, ⟨.cpu, .flagSet 1⟩] }

/-- R288: when the external source can request and what a request does; its handler takes the request, sets WAKE_REQ and wakes a
sleeping CPU exactly when its draw asks; the request may never come. -/
def Obligations.ExternalWakeSourceSteps : Prop :=
  Choice.extReq.fair = false ∧
  ∀ s : State,
    (enabled s .extReq = true ↔ s.fault = none ∧ s.mode ≠ .halted ∧ s.initDone = true ∧ s.extPend = false) ∧
    take .extReq s = .next { s with extPend := true } ∧
    ∀ r : Bool,
      (r = true → s.mode = .sleep →
        take (.isrExt r) s = .next { s with
          extPend := false
          evflags := s.evflags ||| 0b100
          mode := .active
          history := s.history ++ [⟨.cpu, .flagSet 2⟩, ⟨.cpu, .extIsr r⟩, ⟨.cpu, .resume⟩] }) ∧
      (r = false ∨ s.mode ≠ .sleep →
        take (.isrExt r) s = .next { s with
          extPend := false
          evflags := s.evflags ||| 0b100
          history := s.history ++ [⟨.cpu, .flagSet 2⟩, ⟨.cpu, .extIsr r⟩] })

/-- R284: exactly when each interrupt step is enabled; each is subject to weak fairness. -/
def Obligations.InterruptAcceptance : Prop :=
  (Choice.nmiEntry.fair = true ∧ Choice.isrHb.fair = true ∧ Choice.isrSym.fair = true ∧
    ∀ r, (Choice.isrExt r).fair = true) ∧
  ∀ s : State,
    (enabled s .nmiEntry = true ↔
      s.fault = none ∧ s.mode ≠ .halted ∧ s.ctx = .main ∧ s.oscFault = true ∧ s.faultIe = true) ∧
    (enabled s .isrHb = true ↔
      s.fault = none ∧ s.mode ≠ .halted ∧ s.ctx = .main ∧ s.gie = true ∧ (s.hb.pend = true ∧ s.hb.ie = true) ∧
        ¬(s.oscFault = true ∧ s.faultIe = true)) ∧
    (enabled s .isrSym = true ↔
      s.fault = none ∧ s.mode ≠ .halted ∧ s.ctx = .main ∧ s.gie = true ∧ (s.sym.pend = true ∧ s.sym.ie = true) ∧
        ¬(s.oscFault = true ∧ s.faultIe = true)) ∧
    ∀ r, (enabled s (.isrExt r) = true ↔
      s.fault = none ∧ s.mode ≠ .halted ∧ s.ctx = .main ∧ s.gie = true ∧ (s.extPend = true ∧ s.initDone = true) ∧
        ¬(s.oscFault = true ∧ s.faultIe = true))

/-- R260, R290, R296: exactly when main-line code, the clock-fault handler and the watchdog have a step. -/
def Obligations.OtherStepsEnabled : Prop :=
  ∀ s : State,
    (enabled s .main = true ↔ s.fault = none ∧ s.ctx = .main ∧ s.mode = .active) ∧
    (enabled s .nmiStep = true ↔ s.fault = none ∧ s.mode ≠ .halted ∧ ∃ k, s.ctx = .nmi k) ∧
    ∀ f, (enabled s (.wdtTick f) = true ↔ s.fault = none ∧ s.mode ≠ .halted)

/-- R289, R290, R291, R292: the NMI entry and each micro-step of its handler, with all they change. -/
def Obligations.ClockFaultHandlerSteps : Prop :=
  ∀ s : State,
    take .nmiEntry s = .next { s with ctx := .nmi .n1, history := s.history ++ [⟨.cpu, .nmiEnter⟩] } ∧
    (s.ctx = .nmi .n1 →
      take .nmiStep s = .next { s with
        ctx := .nmi .n2
        oscFault := s.oscFault && !s.oscOk
        history := s.history ++ [⟨.cpu, .faultClear .nmi⟩] }) ∧
    (s.ctx = .nmi .n2 → take .nmiStep s = .next { s with ctx := .nmi .n3 }) ∧
    (s.ctx = .nmi .n3 → s.oscFault = true →
      take .nmiStep s = .next { s with ctx := .nmi .n1, history := s.history ++ [⟨.cpu, .faultCheck .nmi true⟩] }) ∧
    (s.ctx = .nmi .n3 → s.oscFault = false →
      take .nmiStep s = .next { s with
        ctx := .main
        history := s.history ++ [⟨.cpu, .faultCheck .nmi false⟩, ⟨.cpu, .nmiExit⟩] })

/-- R296, R297: a watchdog tick below the timeout only counts; the tick that reaches it resets every field to its reset value, but for the
launch arguments, the history, `osc_ok`, the recorded fault, and FAULT, which the reset law sets. That the schedule and the moment
are kept is the model's own (log entry 7, DESIGN CHOICE). -/
def Obligations.WatchdogTickCountsOrResets : Prop :=
  ∀ (s : State) (draw : Bool),
    (s.wdtCnt + 1 ≠ s.params.wdtTimeout →
      take (.wdtTick draw) s = .next { s with wdtCnt := s.wdtCnt + 1 }) ∧
    (s.wdtCnt + 1 = s.params.wdtTimeout →
      take (.wdtTick draw) s = .next
        { params := s.params, program := s.program, pc := 0, acc := none, gie := false, mode := .active, ctx := .main,
          phase := .fetch, initDone := false, fault := s.fault, evflags := 0b000, clkCfg := none, clkConfigured := false,
          unusedParked := false, gps := ⟨.disabled, none, none, none, none⟩, rf := ⟨.disabled, none, none, none, none⟩,
          oscFault := !s.oscOk || draw, faultIe := false, xoscOn := false, oscOk := s.oscOk,
          hb := ⟨none, none, false, false, false⟩, sym := ⟨none, none, false, false, false⟩, wdtCnt := 0, extPend := false,
          history := s.history ++ [⟨.wdt, .wdtReset⟩], schedule := s.schedule, moment := s.moment })

/-- R293: the oscillator condition may flip at any point of a run, any number of times or never; going bad forces FAULT to 1. -/
def Obligations.OscillatorConditionFlips : Prop :=
  Choice.oscChange.fair = false ∧
  ∀ s : State,
    (enabled s .oscChange = true ↔ s.fault = none ∧ s.mode ≠ .halted) ∧
    (s.oscOk = true → take .oscChange s = .next { s with oscOk := false, oscFault := true }) ∧
    (s.oscOk = false → take .oscChange s = .next { s with oscOk := true })

/-! ### Rules of the whole machine -/

/-- R30 to R52, R130, R142, R292, R296, R330: every step keeps the machine's invariant. -/
def Obligations.EveryStepKeepsTheMachineInvariant : Prop :=
  ∀ s s' : State, Inv s → step s = .next s' → Inv s'

/-- Under the invariant a step stops only as R39 and R266 say: no agent step meets an UNKNOWN timer register (R31). -/
def Obligations.StepStopsOnlyAtTheEndOfARun : Prop :=
  ∀ s : State, Inv s → s.fault = none → s.mode ≠ .halted → ∃ s', step s = .next s'

/-- R180, R161 to R174: every step keeps the modules' facts, so whatever requests came before, a module outside a sequence has the
outputs its Module State names (idempotent convergence). -/
def Obligations.EveryStepKeepsModuleConvergence : Prop :=
  ∀ s s' : State, Inv s → ModuleInv s → step s = .next s' → ModuleInv s'

/-- R201, R203: every step keeps the periodicity laws of both timers, for every schedule. -/
def Obligations.EveryStepKeepsPeriodicity : Prop :=
  ∀ s s' : State, s.params.valid = true → PeriodInv s → step s = .next s' → PeriodInv s'

/-- R291, 95 E5: whatever the schedule, NMI_EXIT comes only right after a check that read the flag clear. -/
def Obligations.EveryStepKeepsNmiExitsChecked : Prop :=
  ∀ s s' : State, nmiExitsFollowClearCheck none s.history = true → step s = .next s' →
    nmiExitsFollowClearCheck none s'.history = true

/-- R181, R172, R173: whatever the schedule, the fault interrupt is armed only after a main-line check that read the flag clear. -/
def Obligations.EveryStepKeepsArmingChecked : Prop :=
  ∀ s s' : State, ArmingInv s → step s = .next s' → ArmingInv s'

/-- R292: in every state, reachable or not, a step keeps FAULT forced while the oscillator condition is bad. -/
def Obligations.EveryStepKeepsTheFaultFlagForced : Prop :=
  ∀ s s' : State, OscInv s → step s = .next s' → OscInv s'

/-- R330, R331: the state after power-on reset meets every invariant. -/
def Obligations.ResetMeetsTheInvariants : Prop :=
  Inv State.reset ∧ ModuleInv State.reset ∧ PeriodInv State.reset ∧ ArmingInv State.reset ∧ OscInv State.reset ∧
    nmiExitsFollowClearCheck none State.reset.history = true

/-- R5, R11, R81, R297: no step, a watchdog reset included, writes PROGRAM or a parameter, or removes or changes a record of the
history. -/
def Obligations.NoStepWritesProgramParametersOrThePast : Prop :=
  ∀ s s' : State, step s = .next s' →
    s'.program = s.program ∧ s'.params = s.params ∧ ∃ new, s'.history = s.history ++ new

/-- R40, R204, R235: a set flag becomes clear only by a clear or an exchange of main-line code whose mask holds it, or by a reset; no
handler and no environment step clears one. -/
def Obligations.FlagsAreClearedOnlyByCommandsOrReset : Prop :=
  ∀ (s s' : State) (f : EventFlag), step s = .next s' → flagIsSet s.evflags f = true → flagIsSet s'.evflags f = false →
    ∃ r, s'.history = s.history ++ [r] ∧
      ((∃ mask, r = ⟨.cpu, .flagsClear mask⟩ ∧ flagIsSet mask f = true) ∨
        (∃ mask v, r = ⟨.cpu, .flagsXchg mask v⟩ ∧ flagIsSet v f = true) ∨ r = ⟨.wdt, .wdtReset⟩)

/-- R40: a flag becomes set only by the handler it belongs to. -/
def Obligations.FlagsAreSetOnlyByTheirHandler : Prop :=
  ∀ (s s' : State) (f : EventFlag), step s = .next s' → flagIsSet s.evflags f = false → flagIsSet s'.evflags f = true →
    match f with
    | .hbDue => pick s = some .isrHb
    | .symDue => pick s = some .isrSym
    | .wakeReq => ∃ r, pick s = some (.isrExt r)

/-- R286, R291, R303, R348: sleep ends only by the heartbeat handler with WAKE_REQ set, by the external handler whose draw asks, or by a
watchdog reset. -/
def Obligations.SleepEndsOnlyByAWakeOrReset : Prop :=
  ∀ s s' : State, step s = .next s' → s.mode = .sleep → s'.mode ≠ .sleep →
    s'.mode = .active ∧
      ((pick s = some .isrHb ∧ flagIsSet s.evflags .wakeReq = true) ∨ pick s = some (.isrExt true) ∨
        ∃ d, pick s = some (.wdtTick d) ∧ s'.history = s.history ++ [⟨.wdt, .wdtReset⟩])

/-- R36, R285, R286, R289, R290: a step of any agent but main-line code, short of a watchdog reset, leaves the main-line state
untouched, but for the mode, which a handler that asks for a resume takes from Sleep to Active. -/
def Obligations.OtherStepsKeepTheMainLineState : Prop :=
  ∀ (s s' : State) (c : Choice), c ≠ .main → take c s = .next s' →
    ((s'.mode = s.mode ∨
        (s.mode = .sleep ∧ s'.mode = .active ∧
          ((c = .isrHb ∧ flagIsSet s.evflags .wakeReq = true) ∨ c = .isrExt true))) ∧
      s'.pc = s.pc ∧ s'.phase = s.phase ∧ s'.acc = s.acc ∧ s'.gie = s.gie ∧ s'.initDone = s.initDone ∧
      s'.gps = s.gps ∧ s'.rf = s.rf ∧ s'.clkCfg = s.clkCfg ∧ s'.clkConfigured = s.clkConfigured ∧
      s'.unusedParked = s.unusedParked ∧ s'.faultIe = s.faultIe ∧ s'.xoscOn = s.xoscOn ∧ s'.fault = s.fault) ∨
    ((∃ d, c = .wdtTick d) ∧ s'.history = s.history ++ [⟨.wdt, .wdtReset⟩])

/-- R290, R291, R294, R297: the clock-fault handler gives the CPU back to main-line code only from a check that reads the flag clear, or
ends in a watchdog reset. What becomes of the schedule and the moment is the model's own (log entry 7, DESIGN CHOICE). -/
def Obligations.NmiHandlerEndsOnlyOnAClearCheckOrReset : Prop :=
  ∀ s s' : State, step s = .next s' → s.ctx ≠ .main → s'.ctx = .main →
    (s.ctx = .nmi .n3 ∧ s.oscFault = false ∧
      s' = { s with
        schedule := s.schedule.tail
        moment := s.moment + 1
        ctx := .main
        history := s.history ++ [⟨.cpu, .faultCheck .nmi false⟩, ⟨.cpu, .nmiExit⟩] }) ∨
    s'.history = s.history ++ [⟨.wdt, .wdtReset⟩]

/-- R43, R174: a Module State changes only in the step that records it, MODULE_STATE(m, v), or by a watchdog reset. -/
def Obligations.ModuleStateChangesOnlyWhereRecorded : Prop :=
  ∀ (s s' : State) (m : ModuleId), step s = .next s' → (s'.moduleUnit m).mstate ≠ (s.moduleUnit m).mstate →
    s'.history = s.history ++ [⟨.cpu, .moduleState m (s'.moduleUnit m).mstate⟩] ∨
      s'.history = s.history ++ [⟨.wdt, .wdtReset⟩]

/-- R296, R347: along any finite run, as many watchdog ticks as are missing to the timeout bring a feed or a reset. -/
def Obligations.WatchdogIsFedOrResetsInTime : Prop :=
  ∀ (cs : List Choice) (s s' : State), s.wdtCnt.toNat < s.params.wdtTimeout.toNat → RunsBy cs s s' →
    s.params.wdtTimeout.toNat ≤ s.wdtCnt.toNat + wdtTicks cs →
    ∃ new, s'.history = s.history ++ new ∧ ∃ r ∈ new, r.event = .wdtFeed ∨ r.event = .wdtReset

/-- R9, R296: in every weakly fair infinite run, after every point the watchdog is fed or resets the system: a program that stops feeding
is reset eventually. `WeaklyFair` and which choices count as one step are the model's form of R9 (log entry 8, DESIGN CHOICE). -/
def Obligations.FairRunsFeedOrReset : Prop :=
  ∀ (σ : Nat → State) (χ : Nat → Choice), InfiniteRun σ χ → WeaklyFair σ χ → ∀ n : Nat,
    (σ n).wdtCnt.toNat < (σ n).params.wdtTimeout.toNat →
    ∃ m, n ≤ m ∧ ∃ new, (σ m).history = (σ n).history ++ new ∧ ∃ r ∈ new, r.event = .wdtFeed ∨ r.event = .wdtReset
end

