-- ==== Sys2Proof/Laws/Codes.lean ====
section
/-!
SUPPORT. The numbers of the history tell its names apart (30_encoding.md rules R109, R111; 60_exceptions.md rule R281).
-/

namespace Sys2Proof

@[simp] theorem moduleOfCode_code (m : ModuleId) : moduleOfCode m.code = m := by cases m <;> rfl

@[simp] theorem modStateOfCode_code (v : ModState) : modStateOfCode v.code = v := by cases v <;> rfl

theorem TimerId.code_injective {t u : TimerId} (h : t.code = u.code) : t = u := by
  cases t <;> cases u <;> first | rfl | cases h

namespace Machine

/-- R281: the codes are 1 to 6, one each. -/
theorem FaultCode.number_injective {c d : FaultCode} (h : c.number = d.number) : c = d := by
  cases c <;> cases d <;> first | rfl | cases h

/-- R111: one vector number for each source. -/
theorem IrqSource.vector_injective {v w : IrqSource} (h : v.vector = w.vector) : v = w := by
  cases v <;> cases w <;> first | rfl | cases h

/-- R283, R284: reset is never pending, so no interrupt step has its vector. -/
theorem maskableAccepted_reset (s : State) : maskableAccepted s .reset = false := by
  simp [maskableAccepted, irqPending]

end Machine

end Sys2Proof
end

