-- ==== Sys2Proof/Laws/Config.lean ====
section
/-!
SUPPORT. Rates are positive reals, BAUD_DIV is a function of the two numbers, and the launch parameters meet R5's constraints,
whatever the free values are.
-/

namespace Sys2Proof

/-! ### Rates (R5) -/

/-- A rate that is rational in form is its rational. -/
@[simp] theorem Rate.hertz_rational (q : Rat) : (Rate.rational q).hertz = q := rfl

/-- `Rate.positive` is what R5 asks: a positive real. -/
theorem Rate.hertz_pos {r : Rate} (h : r.positive = true) : 0 < r.hertz := by
  cases r with
  | rational q => exact Rat.cast_pos.2 (of_decide_eq_true h)
  | free n => exact mul_self_pos.2 (Config.rateRoot n).ne_zero

/-- Every positive real can be the square of a real other than 0: the form of `Rate.free` leaves none out. -/
theorem Rate.free_form {x : ℝ} (h : 0 < x) : ∃ u : ℝˣ, (u : ℝ) * (u : ℝ) = x :=
  ⟨Units.mk0 (Real.sqrt x) (Real.sqrt_pos.2 h).ne', Real.mul_self_sqrt h.le⟩

/-- Two rates written out that are one real number are one datum. -/
theorem Rate.eq_of_hertz {r r' : Rate} (hr : r.isRational = true) (hr' : r'.isRational = true) (h : r.hertz = r'.hertz) :
    r = r' := by
  cases r <;> cases r' <;> simp_all [Rate.isRational]

/-- `BAUD_DIV` depends on the two real numbers alone, at every rate the instance can give it (R179). -/
theorem Params.baudDiv_of_hertz {p : Params} (hp : p.valid = true) {r r' b b' : Rate} (hr : r ∈ p.baudArguments)
    (hr' : r' ∈ p.baudArguments) (hb : b ∈ p.baudArguments) (hb' : b' ∈ p.baudArguments) (h : r.hertz = r'.hertz)
    (h' : b.hertz = b'.hertz) : p.baudDiv r b = p.baudDiv r' b' := by
  have hw : p.pinsWf = true := by
    simp only [Params.valid, Bool.and_eq_true] at hp
    tauto
  obtain he | ha := Bool.or_eq_true_iff.1 hw
  · simp [Params.baudDiv, List.isEmpty_iff.1 he, h, h']
  · have key := List.all_eq_true.1 ha
    rw [Rate.eq_of_hertz (key _ hr) (key _ hr') h, Rate.eq_of_hertz (key _ hb) (key _ hb') h']

/-- The rates `BAUD_DIV` is given are among those the pins speak of (R179). -/
theorem Params.serial_arguments (p : Params) (m : ModuleId) :
    p.clockRate (p.serClk m) ∈ p.baudArguments ∧ p.baud m ∈ p.baudArguments := by
  constructor
  · unfold Params.clockRate
    split <;> simp [Params.baudArguments]
  · cases m <;> simp [Params.baud, Params.baudArguments]

/-! ### Launch -/

theorem Params.smallest_valid : Params.smallest.valid = true := by
  simp [Params.valid, timerParamsValid, Params.smallest, Rate.positive, Params.pinsWf]

theorem Config.launch_valid : Config.launch.valid = true := by
  unfold Config.launch
  split
  · assumption
  · exact Params.smallest_valid

/-- What valid parameters say of the timers and the watchdog (R5). -/
theorem Params.valid_bounds {p : Params} (h : p.valid = true) :
    p.wHb ≤ 32 ∧ p.wSym ≤ 32 ∧ p.hbFirst.toNat < 2 ^ p.wHb ∧ p.symFirst.toNat < 2 ^ p.wSym ∧ 1 ≤ p.wdtTimeout.toNat := by
  simp [Params.valid, timerParamsValid] at h
  tauto

end Sys2Proof
end

