-- ==== Sys2Proof/Laws/Decode.lean ====
section
/-!
SUPPORT. The fields of a word built from fields, and the word built from the fields of a word (30_encoding.md rule R100).
-/

namespace Sys2Proof

@[simp] theorem opcField_mkWord (opc a : BitVec 8) (imm : BitVec 16) : opcField (mkWord opc a imm) = opc := by
  apply BitVec.eq_of_getLsbD_eq
  intro n hn
  simp only [opcField, mkWord, BitVec.getLsbD_extractLsb', BitVec.getLsbD_append, hn, decide_true, Bool.true_and]
  rw [if_neg (by omega)]
  congr 1
  omega

@[simp] theorem aField_mkWord (opc a : BitVec 8) (imm : BitVec 16) : aField (mkWord opc a imm) = a := by
  apply BitVec.eq_of_getLsbD_eq
  intro n hn
  simp only [aField, mkWord, BitVec.getLsbD_extractLsb', BitVec.getLsbD_append, hn, decide_true, Bool.true_and]
  rw [if_pos (by omega), if_neg (by omega)]
  congr 1
  omega

@[simp] theorem immField_mkWord (opc a : BitVec 8) (imm : BitVec 16) : immField (mkWord opc a imm) = imm := by
  apply BitVec.eq_of_getLsbD_eq
  intro n hn
  simp only [immField, mkWord, BitVec.getLsbD_extractLsb', BitVec.getLsbD_append, hn, decide_true, Bool.true_and]
  rw [if_pos (by omega), if_pos (by omega)]
  congr 1
  omega

/-- A word is its three fields put together again. -/
theorem mkWord_fields (w : Word) : mkWord (opcField w) (aField w) (immField w) = w := by
  apply BitVec.eq_of_getLsbD_eq
  intro n hn
  simp only [mkWord, BitVec.getLsbD_append, opcField, aField, immField, BitVec.getLsbD_extractLsb']
  split
  · split
    · simp [*]
    · rename_i h1 h2
      simp only [show n - 16 < 8 from by omega, decide_true, Bool.true_and]
      congr 1; omega
  · rename_i h1
    simp only [show n - (8 + 16) < 8 from by omega, decide_true, Bool.true_and]
    congr 1; omega

/-! ### One inversion lemma per operand form -/

theorem decodePlain_ok {a : BitVec 8} {imm : BitVec 16} {i j : Instr} :
    decodePlain a imm i = .ok j ↔ a = 0 ∧ imm = 0 ∧ j = i := by
  unfold decodePlain
  split <;> rename_i h
  · exact ⟨fun e => (by cases e; exact ⟨h.1, h.2, rfl⟩), fun e => by rw [e.2.2]⟩
  · exact ⟨fun e => (by cases e), fun e => absurd ⟨e.1, e.2.1⟩ h⟩

theorem decodeImm_ok {a : BitVec 8} {imm : BitVec 16} {f : BitVec 16 → Instr} {j : Instr} :
    decodeImm a imm f = .ok j ↔ a = 0 ∧ j = f imm := by
  unfold decodeImm
  split <;> rename_i h
  · exact ⟨fun e => (by cases e; exact ⟨h, rfl⟩), fun e => by rw [e.2]⟩
  · exact ⟨fun e => (by cases e), fun e => absurd e.1 h⟩

theorem decodeMask3_ok {a : BitVec 8} {imm : BitVec 16} {f : BitVec 3 → Instr} {j : Instr} :
    decodeMask3 a imm f = .ok j ↔ a.extractLsb' 3 5 = 0 ∧ imm = 0 ∧ j = f (a.extractLsb' 0 3) := by
  unfold decodeMask3
  split <;> rename_i h
  · exact ⟨fun e => (by cases e; exact ⟨h.1, h.2, rfl⟩), fun e => by rw [e.2.2]⟩
  · exact ⟨fun e => (by cases e), fun e => absurd ⟨e.1, e.2.1⟩ h⟩

theorem decodeRegidx_ok {a : BitVec 8} {imm : BitVec 16} {j : Instr} :
    decodeRegidx a imm = .ok j ↔ imm = 0 ∧ a.toNat < firstReservedIndex ∧ j = .regRead a := by
  unfold decodeRegidx
  split <;> rename_i h
  · split <;> rename_i h2
    · exact ⟨fun e => (by cases e; exact ⟨h, h2, rfl⟩), fun e => by rw [e.2.2]⟩
    · exact ⟨fun e => (by cases e), fun e => absurd e.2.1 h2⟩
  · exact ⟨fun e => (by cases e), fun e => absurd e.1 h⟩

theorem decodeModsel_ok {a : BitVec 8} {imm : BitVec 16} {j : Instr} :
    decodeModsel a imm = .ok j ↔ imm = 0 ∧ ((a = 0 ∧ j = .cfgGpsDisabled) ∨ (a = 1 ∧ j = .cfgGpsEnabled) ∨
      (a = 2 ∧ j = .cfgRfDisabled) ∨ (a = 3 ∧ j = .cfgRfEnabled)) := by
  have ha : ∀ a : BitVec 8, a.extractLsb' 2 6 = 0 ↔ a = 0 ∨ a = 1 ∨ a = 2 ∨ a = 3 := by decide
  unfold decodeModsel
  split <;> rename_i h
  · obtain ⟨h1, rfl⟩ := h
    obtain rfl | rfl | rfl | rfl := (ha a).1 h1 <;>
      simp [moduleOfCode, modStateOfCode, ModuleId.code, ModState.code, cfgModule, eq_comm]
  · refine ⟨fun e => (by cases e), fun ⟨h1, h2⟩ => absurd ⟨(ha a).2 ?_, h1⟩ h⟩
    tauto

/-- The four `modsel` fields of R103, as numbers. -/
@[simp] theorem modselField_gps_disabled : modselField .gps .disabled = 0 := rfl
@[simp] theorem modselField_gps_enabled : modselField .gps .enabled = 1 := rfl
@[simp] theorem modselField_rf_disabled : modselField .rf .disabled = 2 := rfl
@[simp] theorem modselField_rf_enabled : modselField .rf .enabled = 3 := rfl

/-- A 3-bit mask widened to the A field is the A field whose upper five bits are 0 (R104). -/
theorem mask3_of_aField : ∀ a : BitVec 8, a.extractLsb' 3 5 = 0 → (a.extractLsb' 0 3).setWidth 8 = a := by decide

/-- The word that the four bytes of a word spell is the word (R83). -/
theorem wordOfBytes_extract (w : Word) :
    wordOfBytes (w.extractLsb' 0 8) (w.extractLsb' 8 8) (w.extractLsb' 16 8) (w.extractLsb' 24 8) = w := by
  apply BitVec.eq_of_getLsbD_eq
  intro n hn
  simp only [wordOfBytes, BitVec.getLsbD_append, BitVec.getLsbD_extractLsb']
  split
  · split
    · split
      · simp [*]
      · simp only [show n - 8 < 8 from by omega, decide_true, Bool.true_and]
        congr 1; omega
    · simp only [show n - (8 + 8) < 8 from by omega, decide_true, Bool.true_and]
      congr 1; omega
  · simp only [show n - (8 + (8 + 8)) < 8 from by omega, decide_true, Bool.true_and]
    congr 1; omega

end Sys2Proof
end

