-- ==== Sys2Proof/Laws/State.lean ====
section
/-!
SUPPORT. One lemma per field per named update of the state, so that no later proof unfolds a record update.
-/

namespace Sys2Proof.Machine

/-! ### emit -/

@[simp] theorem State.emit_params (s : State) (a : Agent) (e : Event) : (s.emit a e).params = s.params := rfl
@[simp] theorem State.emit_program (s : State) (a : Agent) (e : Event) : (s.emit a e).program = s.program := rfl
@[simp] theorem State.emit_pc (s : State) (a : Agent) (e : Event) : (s.emit a e).pc = s.pc := rfl
@[simp] theorem State.emit_acc (s : State) (a : Agent) (e : Event) : (s.emit a e).acc = s.acc := rfl
@[simp] theorem State.emit_gie (s : State) (a : Agent) (e : Event) : (s.emit a e).gie = s.gie := rfl
@[simp] theorem State.emit_mode (s : State) (a : Agent) (e : Event) : (s.emit a e).mode = s.mode := rfl
@[simp] theorem State.emit_ctx (s : State) (a : Agent) (e : Event) : (s.emit a e).ctx = s.ctx := rfl
@[simp] theorem State.emit_phase (s : State) (a : Agent) (e : Event) : (s.emit a e).phase = s.phase := rfl
@[simp] theorem State.emit_initDone (s : State) (a : Agent) (e : Event) : (s.emit a e).initDone = s.initDone := rfl
@[simp] theorem State.emit_fault (s : State) (a : Agent) (e : Event) : (s.emit a e).fault = s.fault := rfl
@[simp] theorem State.emit_evflags (s : State) (a : Agent) (e : Event) : (s.emit a e).evflags = s.evflags := rfl
@[simp] theorem State.emit_clkCfg (s : State) (a : Agent) (e : Event) : (s.emit a e).clkCfg = s.clkCfg := rfl
@[simp] theorem State.emit_clkConfigured (s : State) (a : Agent) (e : Event) : (s.emit a e).clkConfigured = s.clkConfigured := rfl
@[simp] theorem State.emit_unusedParked (s : State) (a : Agent) (e : Event) : (s.emit a e).unusedParked = s.unusedParked := rfl
@[simp] theorem State.emit_gps (s : State) (a : Agent) (e : Event) : (s.emit a e).gps = s.gps := rfl
@[simp] theorem State.emit_rf (s : State) (a : Agent) (e : Event) : (s.emit a e).rf = s.rf := rfl
@[simp] theorem State.emit_oscFault (s : State) (a : Agent) (e : Event) : (s.emit a e).oscFault = s.oscFault := rfl
@[simp] theorem State.emit_faultIe (s : State) (a : Agent) (e : Event) : (s.emit a e).faultIe = s.faultIe := rfl
@[simp] theorem State.emit_xoscOn (s : State) (a : Agent) (e : Event) : (s.emit a e).xoscOn = s.xoscOn := rfl
@[simp] theorem State.emit_oscOk (s : State) (a : Agent) (e : Event) : (s.emit a e).oscOk = s.oscOk := rfl
@[simp] theorem State.emit_hb (s : State) (a : Agent) (e : Event) : (s.emit a e).hb = s.hb := rfl
@[simp] theorem State.emit_sym (s : State) (a : Agent) (e : Event) : (s.emit a e).sym = s.sym := rfl
@[simp] theorem State.emit_wdtCnt (s : State) (a : Agent) (e : Event) : (s.emit a e).wdtCnt = s.wdtCnt := rfl
@[simp] theorem State.emit_extPend (s : State) (a : Agent) (e : Event) : (s.emit a e).extPend = s.extPend := rfl
@[simp] theorem State.emit_history (s : State) (a : Agent) (e : Event) : (s.emit a e).history = s.history ++ [⟨a, e⟩] := rfl
@[simp] theorem State.emit_schedule (s : State) (a : Agent) (e : Event) : (s.emit a e).schedule = s.schedule := rfl
@[simp] theorem State.emit_moment (s : State) (a : Agent) (e : Event) : (s.emit a e).moment = s.moment := rfl

/-! ### advance -/

@[simp] theorem State.advance_params (s : State) : (s.advance).params = s.params := rfl
@[simp] theorem State.advance_program (s : State) : (s.advance).program = s.program := rfl
@[simp] theorem State.advance_pc (s : State) : (s.advance).pc = s.pc + 1 := rfl
@[simp] theorem State.advance_acc (s : State) : (s.advance).acc = s.acc := rfl
@[simp] theorem State.advance_gie (s : State) : (s.advance).gie = s.gie := rfl
@[simp] theorem State.advance_mode (s : State) : (s.advance).mode = s.mode := rfl
@[simp] theorem State.advance_ctx (s : State) : (s.advance).ctx = s.ctx := rfl
@[simp] theorem State.advance_phase (s : State) : (s.advance).phase = s.phase := rfl
@[simp] theorem State.advance_initDone (s : State) : (s.advance).initDone = s.initDone := rfl
@[simp] theorem State.advance_fault (s : State) : (s.advance).fault = s.fault := rfl
@[simp] theorem State.advance_evflags (s : State) : (s.advance).evflags = s.evflags := rfl
@[simp] theorem State.advance_clkCfg (s : State) : (s.advance).clkCfg = s.clkCfg := rfl
@[simp] theorem State.advance_clkConfigured (s : State) : (s.advance).clkConfigured = s.clkConfigured := rfl
@[simp] theorem State.advance_unusedParked (s : State) : (s.advance).unusedParked = s.unusedParked := rfl
@[simp] theorem State.advance_gps (s : State) : (s.advance).gps = s.gps := rfl
@[simp] theorem State.advance_rf (s : State) : (s.advance).rf = s.rf := rfl
@[simp] theorem State.advance_oscFault (s : State) : (s.advance).oscFault = s.oscFault := rfl
@[simp] theorem State.advance_faultIe (s : State) : (s.advance).faultIe = s.faultIe := rfl
@[simp] theorem State.advance_xoscOn (s : State) : (s.advance).xoscOn = s.xoscOn := rfl
@[simp] theorem State.advance_oscOk (s : State) : (s.advance).oscOk = s.oscOk := rfl
@[simp] theorem State.advance_hb (s : State) : (s.advance).hb = s.hb := rfl
@[simp] theorem State.advance_sym (s : State) : (s.advance).sym = s.sym := rfl
@[simp] theorem State.advance_wdtCnt (s : State) : (s.advance).wdtCnt = s.wdtCnt := rfl
@[simp] theorem State.advance_extPend (s : State) : (s.advance).extPend = s.extPend := rfl
@[simp] theorem State.advance_history (s : State) : (s.advance).history = s.history := rfl
@[simp] theorem State.advance_schedule (s : State) : (s.advance).schedule = s.schedule := rfl
@[simp] theorem State.advance_moment (s : State) : (s.advance).moment = s.moment := rfl

/-! ### finish -/

@[simp] theorem State.finish_params (s : State) : (s.finish).params = s.params := rfl
@[simp] theorem State.finish_program (s : State) : (s.finish).program = s.program := rfl
@[simp] theorem State.finish_pc (s : State) : (s.finish).pc = s.pc + 1 := rfl
@[simp] theorem State.finish_acc (s : State) : (s.finish).acc = s.acc := rfl
@[simp] theorem State.finish_gie (s : State) : (s.finish).gie = s.gie := rfl
@[simp] theorem State.finish_mode (s : State) : (s.finish).mode = s.mode := rfl
@[simp] theorem State.finish_ctx (s : State) : (s.finish).ctx = s.ctx := rfl
@[simp] theorem State.finish_phase (s : State) : (s.finish).phase = .fetch := rfl
@[simp] theorem State.finish_initDone (s : State) : (s.finish).initDone = s.initDone := rfl
@[simp] theorem State.finish_fault (s : State) : (s.finish).fault = s.fault := rfl
@[simp] theorem State.finish_evflags (s : State) : (s.finish).evflags = s.evflags := rfl
@[simp] theorem State.finish_clkCfg (s : State) : (s.finish).clkCfg = s.clkCfg := rfl
@[simp] theorem State.finish_clkConfigured (s : State) : (s.finish).clkConfigured = s.clkConfigured := rfl
@[simp] theorem State.finish_unusedParked (s : State) : (s.finish).unusedParked = s.unusedParked := rfl
@[simp] theorem State.finish_gps (s : State) : (s.finish).gps = s.gps := rfl
@[simp] theorem State.finish_rf (s : State) : (s.finish).rf = s.rf := rfl
@[simp] theorem State.finish_oscFault (s : State) : (s.finish).oscFault = s.oscFault := rfl
@[simp] theorem State.finish_faultIe (s : State) : (s.finish).faultIe = s.faultIe := rfl
@[simp] theorem State.finish_xoscOn (s : State) : (s.finish).xoscOn = s.xoscOn := rfl
@[simp] theorem State.finish_oscOk (s : State) : (s.finish).oscOk = s.oscOk := rfl
@[simp] theorem State.finish_hb (s : State) : (s.finish).hb = s.hb := rfl
@[simp] theorem State.finish_sym (s : State) : (s.finish).sym = s.sym := rfl
@[simp] theorem State.finish_wdtCnt (s : State) : (s.finish).wdtCnt = s.wdtCnt := rfl
@[simp] theorem State.finish_extPend (s : State) : (s.finish).extPend = s.extPend := rfl
@[simp] theorem State.finish_history (s : State) : (s.finish).history = s.history := rfl
@[simp] theorem State.finish_schedule (s : State) : (s.finish).schedule = s.schedule := rfl
@[simp] theorem State.finish_moment (s : State) : (s.finish).moment = s.moment := rfl

/-! ### consume -/

@[simp] theorem State.consume_params (s : State) : (s.consume).params = s.params := rfl
@[simp] theorem State.consume_program (s : State) : (s.consume).program = s.program := rfl
@[simp] theorem State.consume_pc (s : State) : (s.consume).pc = s.pc := rfl
@[simp] theorem State.consume_acc (s : State) : (s.consume).acc = s.acc := rfl
@[simp] theorem State.consume_gie (s : State) : (s.consume).gie = s.gie := rfl
@[simp] theorem State.consume_mode (s : State) : (s.consume).mode = s.mode := rfl
@[simp] theorem State.consume_ctx (s : State) : (s.consume).ctx = s.ctx := rfl
@[simp] theorem State.consume_phase (s : State) : (s.consume).phase = s.phase := rfl
@[simp] theorem State.consume_initDone (s : State) : (s.consume).initDone = s.initDone := rfl
@[simp] theorem State.consume_fault (s : State) : (s.consume).fault = s.fault := rfl
@[simp] theorem State.consume_evflags (s : State) : (s.consume).evflags = s.evflags := rfl
@[simp] theorem State.consume_clkCfg (s : State) : (s.consume).clkCfg = s.clkCfg := rfl
@[simp] theorem State.consume_clkConfigured (s : State) : (s.consume).clkConfigured = s.clkConfigured := rfl
@[simp] theorem State.consume_unusedParked (s : State) : (s.consume).unusedParked = s.unusedParked := rfl
@[simp] theorem State.consume_gps (s : State) : (s.consume).gps = s.gps := rfl
@[simp] theorem State.consume_rf (s : State) : (s.consume).rf = s.rf := rfl
@[simp] theorem State.consume_oscFault (s : State) : (s.consume).oscFault = s.oscFault := rfl
@[simp] theorem State.consume_faultIe (s : State) : (s.consume).faultIe = s.faultIe := rfl
@[simp] theorem State.consume_xoscOn (s : State) : (s.consume).xoscOn = s.xoscOn := rfl
@[simp] theorem State.consume_oscOk (s : State) : (s.consume).oscOk = s.oscOk := rfl
@[simp] theorem State.consume_hb (s : State) : (s.consume).hb = s.hb := rfl
@[simp] theorem State.consume_sym (s : State) : (s.consume).sym = s.sym := rfl
@[simp] theorem State.consume_wdtCnt (s : State) : (s.consume).wdtCnt = s.wdtCnt := rfl
@[simp] theorem State.consume_extPend (s : State) : (s.consume).extPend = s.extPend := rfl
@[simp] theorem State.consume_history (s : State) : (s.consume).history = s.history := rfl
@[simp] theorem State.consume_schedule (s : State) : (s.consume).schedule = s.schedule.tail := rfl
@[simp] theorem State.consume_moment (s : State) : (s.consume).moment = s.moment + 1 := rfl

/-! ### withTimer -/

@[simp] theorem State.withTimer_params (s : State) (t : TimerId) (x : Timer) : (s.withTimer t x).params = s.params := by cases t <;> rfl
@[simp] theorem State.withTimer_program (s : State) (t : TimerId) (x : Timer) : (s.withTimer t x).program = s.program := by cases t <;> rfl
@[simp] theorem State.withTimer_pc (s : State) (t : TimerId) (x : Timer) : (s.withTimer t x).pc = s.pc := by cases t <;> rfl
@[simp] theorem State.withTimer_acc (s : State) (t : TimerId) (x : Timer) : (s.withTimer t x).acc = s.acc := by cases t <;> rfl
@[simp] theorem State.withTimer_gie (s : State) (t : TimerId) (x : Timer) : (s.withTimer t x).gie = s.gie := by cases t <;> rfl
@[simp] theorem State.withTimer_mode (s : State) (t : TimerId) (x : Timer) : (s.withTimer t x).mode = s.mode := by cases t <;> rfl
@[simp] theorem State.withTimer_ctx (s : State) (t : TimerId) (x : Timer) : (s.withTimer t x).ctx = s.ctx := by cases t <;> rfl
@[simp] theorem State.withTimer_phase (s : State) (t : TimerId) (x : Timer) : (s.withTimer t x).phase = s.phase := by cases t <;> rfl
@[simp] theorem State.withTimer_initDone (s : State) (t : TimerId) (x : Timer) : (s.withTimer t x).initDone = s.initDone := by cases t <;> rfl
@[simp] theorem State.withTimer_fault (s : State) (t : TimerId) (x : Timer) : (s.withTimer t x).fault = s.fault := by cases t <;> rfl
@[simp] theorem State.withTimer_evflags (s : State) (t : TimerId) (x : Timer) : (s.withTimer t x).evflags = s.evflags := by cases t <;> rfl
@[simp] theorem State.withTimer_clkCfg (s : State) (t : TimerId) (x : Timer) : (s.withTimer t x).clkCfg = s.clkCfg := by cases t <;> rfl
@[simp] theorem State.withTimer_clkConfigured (s : State) (t : TimerId) (x : Timer) : (s.withTimer t x).clkConfigured = s.clkConfigured := by cases t <;> rfl
@[simp] theorem State.withTimer_unusedParked (s : State) (t : TimerId) (x : Timer) : (s.withTimer t x).unusedParked = s.unusedParked := by cases t <;> rfl
@[simp] theorem State.withTimer_gps (s : State) (t : TimerId) (x : Timer) : (s.withTimer t x).gps = s.gps := by cases t <;> rfl
@[simp] theorem State.withTimer_rf (s : State) (t : TimerId) (x : Timer) : (s.withTimer t x).rf = s.rf := by cases t <;> rfl
@[simp] theorem State.withTimer_oscFault (s : State) (t : TimerId) (x : Timer) : (s.withTimer t x).oscFault = s.oscFault := by cases t <;> rfl
@[simp] theorem State.withTimer_faultIe (s : State) (t : TimerId) (x : Timer) : (s.withTimer t x).faultIe = s.faultIe := by cases t <;> rfl
@[simp] theorem State.withTimer_xoscOn (s : State) (t : TimerId) (x : Timer) : (s.withTimer t x).xoscOn = s.xoscOn := by cases t <;> rfl
@[simp] theorem State.withTimer_oscOk (s : State) (t : TimerId) (x : Timer) : (s.withTimer t x).oscOk = s.oscOk := by cases t <;> rfl
@[simp] theorem State.withTimer_wdtCnt (s : State) (t : TimerId) (x : Timer) : (s.withTimer t x).wdtCnt = s.wdtCnt := by cases t <;> rfl
@[simp] theorem State.withTimer_extPend (s : State) (t : TimerId) (x : Timer) : (s.withTimer t x).extPend = s.extPend := by cases t <;> rfl
@[simp] theorem State.withTimer_history (s : State) (t : TimerId) (x : Timer) : (s.withTimer t x).history = s.history := by cases t <;> rfl
@[simp] theorem State.withTimer_schedule (s : State) (t : TimerId) (x : Timer) : (s.withTimer t x).schedule = s.schedule := by cases t <;> rfl
@[simp] theorem State.withTimer_moment (s : State) (t : TimerId) (x : Timer) : (s.withTimer t x).moment = s.moment := by cases t <;> rfl

@[simp] theorem State.withTimer_hb_hb (s : State) (x : Timer) : (s.withTimer .hb x).hb = x := rfl
@[simp] theorem State.withTimer_hb_sym (s : State) (x : Timer) : (s.withTimer .hb x).sym = s.sym := rfl
@[simp] theorem State.withTimer_sym_hb (s : State) (x : Timer) : (s.withTimer .sym x).hb = s.hb := rfl
@[simp] theorem State.withTimer_sym_sym (s : State) (x : Timer) : (s.withTimer .sym x).sym = x := rfl
@[simp] theorem State.timer_hb (s : State) : s.timer .hb = s.hb := rfl
@[simp] theorem State.timer_sym (s : State) : s.timer .sym = s.sym := rfl
@[simp] theorem State.timer_withTimer (s : State) (t : TimerId) (x : Timer) : (s.withTimer t x).timer t = x := by
  cases t <;> rfl

/-! ### withModule -/

@[simp] theorem State.withModule_params (s : State) (m : ModuleId) (x : ModuleUnit) : (s.withModule m x).params = s.params := by cases m <;> rfl
@[simp] theorem State.withModule_program (s : State) (m : ModuleId) (x : ModuleUnit) : (s.withModule m x).program = s.program := by cases m <;> rfl
@[simp] theorem State.withModule_pc (s : State) (m : ModuleId) (x : ModuleUnit) : (s.withModule m x).pc = s.pc := by cases m <;> rfl
@[simp] theorem State.withModule_acc (s : State) (m : ModuleId) (x : ModuleUnit) : (s.withModule m x).acc = s.acc := by cases m <;> rfl
@[simp] theorem State.withModule_gie (s : State) (m : ModuleId) (x : ModuleUnit) : (s.withModule m x).gie = s.gie := by cases m <;> rfl
@[simp] theorem State.withModule_mode (s : State) (m : ModuleId) (x : ModuleUnit) : (s.withModule m x).mode = s.mode := by cases m <;> rfl
@[simp] theorem State.withModule_ctx (s : State) (m : ModuleId) (x : ModuleUnit) : (s.withModule m x).ctx = s.ctx := by cases m <;> rfl
@[simp] theorem State.withModule_phase (s : State) (m : ModuleId) (x : ModuleUnit) : (s.withModule m x).phase = s.phase := by cases m <;> rfl
@[simp] theorem State.withModule_initDone (s : State) (m : ModuleId) (x : ModuleUnit) : (s.withModule m x).initDone = s.initDone := by cases m <;> rfl
@[simp] theorem State.withModule_fault (s : State) (m : ModuleId) (x : ModuleUnit) : (s.withModule m x).fault = s.fault := by cases m <;> rfl
@[simp] theorem State.withModule_evflags (s : State) (m : ModuleId) (x : ModuleUnit) : (s.withModule m x).evflags = s.evflags := by cases m <;> rfl
@[simp] theorem State.withModule_clkCfg (s : State) (m : ModuleId) (x : ModuleUnit) : (s.withModule m x).clkCfg = s.clkCfg := by cases m <;> rfl
@[simp] theorem State.withModule_clkConfigured (s : State) (m : ModuleId) (x : ModuleUnit) : (s.withModule m x).clkConfigured = s.clkConfigured := by cases m <;> rfl
@[simp] theorem State.withModule_unusedParked (s : State) (m : ModuleId) (x : ModuleUnit) : (s.withModule m x).unusedParked = s.unusedParked := by cases m <;> rfl
@[simp] theorem State.withModule_oscFault (s : State) (m : ModuleId) (x : ModuleUnit) : (s.withModule m x).oscFault = s.oscFault := by cases m <;> rfl
@[simp] theorem State.withModule_faultIe (s : State) (m : ModuleId) (x : ModuleUnit) : (s.withModule m x).faultIe = s.faultIe := by cases m <;> rfl
@[simp] theorem State.withModule_xoscOn (s : State) (m : ModuleId) (x : ModuleUnit) : (s.withModule m x).xoscOn = s.xoscOn := by cases m <;> rfl
@[simp] theorem State.withModule_oscOk (s : State) (m : ModuleId) (x : ModuleUnit) : (s.withModule m x).oscOk = s.oscOk := by cases m <;> rfl
@[simp] theorem State.withModule_hb (s : State) (m : ModuleId) (x : ModuleUnit) : (s.withModule m x).hb = s.hb := by cases m <;> rfl
@[simp] theorem State.withModule_sym (s : State) (m : ModuleId) (x : ModuleUnit) : (s.withModule m x).sym = s.sym := by cases m <;> rfl
@[simp] theorem State.withModule_wdtCnt (s : State) (m : ModuleId) (x : ModuleUnit) : (s.withModule m x).wdtCnt = s.wdtCnt := by cases m <;> rfl
@[simp] theorem State.withModule_extPend (s : State) (m : ModuleId) (x : ModuleUnit) : (s.withModule m x).extPend = s.extPend := by cases m <;> rfl
@[simp] theorem State.withModule_history (s : State) (m : ModuleId) (x : ModuleUnit) : (s.withModule m x).history = s.history := by cases m <;> rfl
@[simp] theorem State.withModule_schedule (s : State) (m : ModuleId) (x : ModuleUnit) : (s.withModule m x).schedule = s.schedule := by cases m <;> rfl
@[simp] theorem State.withModule_moment (s : State) (m : ModuleId) (x : ModuleUnit) : (s.withModule m x).moment = s.moment := by cases m <;> rfl

@[simp] theorem State.withModule_gps_gps (s : State) (x : ModuleUnit) : (s.withModule .gps x).gps = x := rfl
@[simp] theorem State.withModule_gps_rf (s : State) (x : ModuleUnit) : (s.withModule .gps x).rf = s.rf := rfl
@[simp] theorem State.withModule_rf_gps (s : State) (x : ModuleUnit) : (s.withModule .rf x).gps = s.gps := rfl
@[simp] theorem State.withModule_rf_rf (s : State) (x : ModuleUnit) : (s.withModule .rf x).rf = x := rfl
@[simp] theorem State.moduleUnit_gps (s : State) : s.moduleUnit .gps = s.gps := rfl
@[simp] theorem State.moduleUnit_rf (s : State) : s.moduleUnit .rf = s.rf := rfl
@[simp] theorem State.moduleUnit_withModule (s : State) (m : ModuleId) (x : ModuleUnit) :
    (s.withModule m x).moduleUnit m = x := by cases m <;> rfl

/-! ### raise -/

@[simp] theorem State.raise_params (s : State) (code : FaultCode) (word : Option Word) : (s.raise code word).params = s.params := rfl
@[simp] theorem State.raise_program (s : State) (code : FaultCode) (word : Option Word) : (s.raise code word).program = s.program := rfl
@[simp] theorem State.raise_pc (s : State) (code : FaultCode) (word : Option Word) : (s.raise code word).pc = s.pc := rfl
@[simp] theorem State.raise_acc (s : State) (code : FaultCode) (word : Option Word) : (s.raise code word).acc = s.acc := rfl
@[simp] theorem State.raise_gie (s : State) (code : FaultCode) (word : Option Word) : (s.raise code word).gie = s.gie := rfl
@[simp] theorem State.raise_mode (s : State) (code : FaultCode) (word : Option Word) : (s.raise code word).mode = s.mode := rfl
@[simp] theorem State.raise_ctx (s : State) (code : FaultCode) (word : Option Word) : (s.raise code word).ctx = s.ctx := rfl
@[simp] theorem State.raise_phase (s : State) (code : FaultCode) (word : Option Word) : (s.raise code word).phase = s.phase := rfl
@[simp] theorem State.raise_initDone (s : State) (code : FaultCode) (word : Option Word) : (s.raise code word).initDone = s.initDone := rfl
@[simp] theorem State.raise_fault (s : State) (code : FaultCode) (word : Option Word) : (s.raise code word).fault = some ⟨code, s.pc, word⟩ := rfl
@[simp] theorem State.raise_evflags (s : State) (code : FaultCode) (word : Option Word) : (s.raise code word).evflags = s.evflags := rfl
@[simp] theorem State.raise_clkCfg (s : State) (code : FaultCode) (word : Option Word) : (s.raise code word).clkCfg = s.clkCfg := rfl
@[simp] theorem State.raise_clkConfigured (s : State) (code : FaultCode) (word : Option Word) : (s.raise code word).clkConfigured = s.clkConfigured := rfl
@[simp] theorem State.raise_unusedParked (s : State) (code : FaultCode) (word : Option Word) : (s.raise code word).unusedParked = s.unusedParked := rfl
@[simp] theorem State.raise_gps (s : State) (code : FaultCode) (word : Option Word) : (s.raise code word).gps = s.gps := rfl
@[simp] theorem State.raise_rf (s : State) (code : FaultCode) (word : Option Word) : (s.raise code word).rf = s.rf := rfl
@[simp] theorem State.raise_oscFault (s : State) (code : FaultCode) (word : Option Word) : (s.raise code word).oscFault = s.oscFault := rfl
@[simp] theorem State.raise_faultIe (s : State) (code : FaultCode) (word : Option Word) : (s.raise code word).faultIe = s.faultIe := rfl
@[simp] theorem State.raise_xoscOn (s : State) (code : FaultCode) (word : Option Word) : (s.raise code word).xoscOn = s.xoscOn := rfl
@[simp] theorem State.raise_oscOk (s : State) (code : FaultCode) (word : Option Word) : (s.raise code word).oscOk = s.oscOk := rfl
@[simp] theorem State.raise_hb (s : State) (code : FaultCode) (word : Option Word) : (s.raise code word).hb = s.hb := rfl
@[simp] theorem State.raise_sym (s : State) (code : FaultCode) (word : Option Word) : (s.raise code word).sym = s.sym := rfl
@[simp] theorem State.raise_wdtCnt (s : State) (code : FaultCode) (word : Option Word) : (s.raise code word).wdtCnt = s.wdtCnt := rfl
@[simp] theorem State.raise_extPend (s : State) (code : FaultCode) (word : Option Word) : (s.raise code word).extPend = s.extPend := rfl
@[simp] theorem State.raise_history (s : State) (code : FaultCode) (word : Option Word) : (s.raise code word).history = s.history ++ [⟨.cpu, .fault code⟩] := rfl
@[simp] theorem State.raise_schedule (s : State) (code : FaultCode) (word : Option Word) : (s.raise code word).schedule = s.schedule := rfl
@[simp] theorem State.raise_moment (s : State) (code : FaultCode) (word : Option Word) : (s.raise code word).moment = s.moment := rfl

/-! ### clearOscFault -/

@[simp] theorem State.clearOscFault_params (s : State) : (s.clearOscFault).params = s.params := rfl
@[simp] theorem State.clearOscFault_program (s : State) : (s.clearOscFault).program = s.program := rfl
@[simp] theorem State.clearOscFault_pc (s : State) : (s.clearOscFault).pc = s.pc := rfl
@[simp] theorem State.clearOscFault_acc (s : State) : (s.clearOscFault).acc = s.acc := rfl
@[simp] theorem State.clearOscFault_gie (s : State) : (s.clearOscFault).gie = s.gie := rfl
@[simp] theorem State.clearOscFault_mode (s : State) : (s.clearOscFault).mode = s.mode := rfl
@[simp] theorem State.clearOscFault_ctx (s : State) : (s.clearOscFault).ctx = s.ctx := rfl
@[simp] theorem State.clearOscFault_phase (s : State) : (s.clearOscFault).phase = s.phase := rfl
@[simp] theorem State.clearOscFault_initDone (s : State) : (s.clearOscFault).initDone = s.initDone := rfl
@[simp] theorem State.clearOscFault_fault (s : State) : (s.clearOscFault).fault = s.fault := rfl
@[simp] theorem State.clearOscFault_evflags (s : State) : (s.clearOscFault).evflags = s.evflags := rfl
@[simp] theorem State.clearOscFault_clkCfg (s : State) : (s.clearOscFault).clkCfg = s.clkCfg := rfl
@[simp] theorem State.clearOscFault_clkConfigured (s : State) : (s.clearOscFault).clkConfigured = s.clkConfigured := rfl
@[simp] theorem State.clearOscFault_unusedParked (s : State) : (s.clearOscFault).unusedParked = s.unusedParked := rfl
@[simp] theorem State.clearOscFault_gps (s : State) : (s.clearOscFault).gps = s.gps := rfl
@[simp] theorem State.clearOscFault_rf (s : State) : (s.clearOscFault).rf = s.rf := rfl
@[simp] theorem State.clearOscFault_oscFault (s : State) : (s.clearOscFault).oscFault = if s.oscOk then false else s.oscFault := rfl
@[simp] theorem State.clearOscFault_faultIe (s : State) : (s.clearOscFault).faultIe = s.faultIe := rfl
@[simp] theorem State.clearOscFault_xoscOn (s : State) : (s.clearOscFault).xoscOn = s.xoscOn := rfl
@[simp] theorem State.clearOscFault_oscOk (s : State) : (s.clearOscFault).oscOk = s.oscOk := rfl
@[simp] theorem State.clearOscFault_hb (s : State) : (s.clearOscFault).hb = s.hb := rfl
@[simp] theorem State.clearOscFault_sym (s : State) : (s.clearOscFault).sym = s.sym := rfl
@[simp] theorem State.clearOscFault_wdtCnt (s : State) : (s.clearOscFault).wdtCnt = s.wdtCnt := rfl
@[simp] theorem State.clearOscFault_extPend (s : State) : (s.clearOscFault).extPend = s.extPend := rfl
@[simp] theorem State.clearOscFault_history (s : State) : (s.clearOscFault).history = s.history := rfl
@[simp] theorem State.clearOscFault_schedule (s : State) : (s.clearOscFault).schedule = s.schedule := rfl
@[simp] theorem State.clearOscFault_moment (s : State) : (s.clearOscFault).moment = s.moment := rfl

/-! ### enterNmi -/

@[simp] theorem State.enterNmi_params (s : State) : (s.enterNmi).params = s.params := rfl
@[simp] theorem State.enterNmi_program (s : State) : (s.enterNmi).program = s.program := rfl
@[simp] theorem State.enterNmi_pc (s : State) : (s.enterNmi).pc = s.pc := rfl
@[simp] theorem State.enterNmi_acc (s : State) : (s.enterNmi).acc = s.acc := rfl
@[simp] theorem State.enterNmi_gie (s : State) : (s.enterNmi).gie = s.gie := rfl
@[simp] theorem State.enterNmi_mode (s : State) : (s.enterNmi).mode = s.mode := rfl
@[simp] theorem State.enterNmi_ctx (s : State) : (s.enterNmi).ctx = .nmi .n1 := rfl
@[simp] theorem State.enterNmi_phase (s : State) : (s.enterNmi).phase = s.phase := rfl
@[simp] theorem State.enterNmi_initDone (s : State) : (s.enterNmi).initDone = s.initDone := rfl
@[simp] theorem State.enterNmi_fault (s : State) : (s.enterNmi).fault = s.fault := rfl
@[simp] theorem State.enterNmi_evflags (s : State) : (s.enterNmi).evflags = s.evflags := rfl
@[simp] theorem State.enterNmi_clkCfg (s : State) : (s.enterNmi).clkCfg = s.clkCfg := rfl
@[simp] theorem State.enterNmi_clkConfigured (s : State) : (s.enterNmi).clkConfigured = s.clkConfigured := rfl
@[simp] theorem State.enterNmi_unusedParked (s : State) : (s.enterNmi).unusedParked = s.unusedParked := rfl
@[simp] theorem State.enterNmi_gps (s : State) : (s.enterNmi).gps = s.gps := rfl
@[simp] theorem State.enterNmi_rf (s : State) : (s.enterNmi).rf = s.rf := rfl
@[simp] theorem State.enterNmi_oscFault (s : State) : (s.enterNmi).oscFault = s.oscFault := rfl
@[simp] theorem State.enterNmi_faultIe (s : State) : (s.enterNmi).faultIe = s.faultIe := rfl
@[simp] theorem State.enterNmi_xoscOn (s : State) : (s.enterNmi).xoscOn = s.xoscOn := rfl
@[simp] theorem State.enterNmi_oscOk (s : State) : (s.enterNmi).oscOk = s.oscOk := rfl
@[simp] theorem State.enterNmi_hb (s : State) : (s.enterNmi).hb = s.hb := rfl
@[simp] theorem State.enterNmi_sym (s : State) : (s.enterNmi).sym = s.sym := rfl
@[simp] theorem State.enterNmi_wdtCnt (s : State) : (s.enterNmi).wdtCnt = s.wdtCnt := rfl
@[simp] theorem State.enterNmi_extPend (s : State) : (s.enterNmi).extPend = s.extPend := rfl
@[simp] theorem State.enterNmi_history (s : State) : (s.enterNmi).history = s.history ++ [⟨.cpu, .nmiEnter⟩] := rfl
@[simp] theorem State.enterNmi_schedule (s : State) : (s.enterNmi).schedule = s.schedule := rfl
@[simp] theorem State.enterNmi_moment (s : State) : (s.enterNmi).moment = s.moment := rfl

/-! ### returnNmi -/

@[simp] theorem State.returnNmi_params (s : State) : (s.returnNmi).params = s.params := rfl
@[simp] theorem State.returnNmi_program (s : State) : (s.returnNmi).program = s.program := rfl
@[simp] theorem State.returnNmi_pc (s : State) : (s.returnNmi).pc = s.pc := rfl
@[simp] theorem State.returnNmi_acc (s : State) : (s.returnNmi).acc = s.acc := rfl
@[simp] theorem State.returnNmi_gie (s : State) : (s.returnNmi).gie = s.gie := rfl
@[simp] theorem State.returnNmi_mode (s : State) : (s.returnNmi).mode = s.mode := rfl
@[simp] theorem State.returnNmi_ctx (s : State) : (s.returnNmi).ctx = .main := rfl
@[simp] theorem State.returnNmi_phase (s : State) : (s.returnNmi).phase = s.phase := rfl
@[simp] theorem State.returnNmi_initDone (s : State) : (s.returnNmi).initDone = s.initDone := rfl
@[simp] theorem State.returnNmi_fault (s : State) : (s.returnNmi).fault = s.fault := rfl
@[simp] theorem State.returnNmi_evflags (s : State) : (s.returnNmi).evflags = s.evflags := rfl
@[simp] theorem State.returnNmi_clkCfg (s : State) : (s.returnNmi).clkCfg = s.clkCfg := rfl
@[simp] theorem State.returnNmi_clkConfigured (s : State) : (s.returnNmi).clkConfigured = s.clkConfigured := rfl
@[simp] theorem State.returnNmi_unusedParked (s : State) : (s.returnNmi).unusedParked = s.unusedParked := rfl
@[simp] theorem State.returnNmi_gps (s : State) : (s.returnNmi).gps = s.gps := rfl
@[simp] theorem State.returnNmi_rf (s : State) : (s.returnNmi).rf = s.rf := rfl
@[simp] theorem State.returnNmi_oscFault (s : State) : (s.returnNmi).oscFault = s.oscFault := rfl
@[simp] theorem State.returnNmi_faultIe (s : State) : (s.returnNmi).faultIe = s.faultIe := rfl
@[simp] theorem State.returnNmi_xoscOn (s : State) : (s.returnNmi).xoscOn = s.xoscOn := rfl
@[simp] theorem State.returnNmi_oscOk (s : State) : (s.returnNmi).oscOk = s.oscOk := rfl
@[simp] theorem State.returnNmi_hb (s : State) : (s.returnNmi).hb = s.hb := rfl
@[simp] theorem State.returnNmi_sym (s : State) : (s.returnNmi).sym = s.sym := rfl
@[simp] theorem State.returnNmi_wdtCnt (s : State) : (s.returnNmi).wdtCnt = s.wdtCnt := rfl
@[simp] theorem State.returnNmi_extPend (s : State) : (s.returnNmi).extPend = s.extPend := rfl
@[simp] theorem State.returnNmi_history (s : State) : (s.returnNmi).history = s.history ++ [⟨.cpu, .nmiExit⟩] := rfl
@[simp] theorem State.returnNmi_schedule (s : State) : (s.returnNmi).schedule = s.schedule := rfl
@[simp] theorem State.returnNmi_moment (s : State) : (s.returnNmi).moment = s.moment := rfl

/-! ### setFlag -/

@[simp] theorem State.setFlag_params (s : State) (f : EventFlag) : (s.setFlag f).params = s.params := rfl
@[simp] theorem State.setFlag_program (s : State) (f : EventFlag) : (s.setFlag f).program = s.program := rfl
@[simp] theorem State.setFlag_pc (s : State) (f : EventFlag) : (s.setFlag f).pc = s.pc := rfl
@[simp] theorem State.setFlag_acc (s : State) (f : EventFlag) : (s.setFlag f).acc = s.acc := rfl
@[simp] theorem State.setFlag_gie (s : State) (f : EventFlag) : (s.setFlag f).gie = s.gie := rfl
@[simp] theorem State.setFlag_mode (s : State) (f : EventFlag) : (s.setFlag f).mode = s.mode := rfl
@[simp] theorem State.setFlag_ctx (s : State) (f : EventFlag) : (s.setFlag f).ctx = s.ctx := rfl
@[simp] theorem State.setFlag_phase (s : State) (f : EventFlag) : (s.setFlag f).phase = s.phase := rfl
@[simp] theorem State.setFlag_initDone (s : State) (f : EventFlag) : (s.setFlag f).initDone = s.initDone := rfl
@[simp] theorem State.setFlag_fault (s : State) (f : EventFlag) : (s.setFlag f).fault = s.fault := rfl
@[simp] theorem State.setFlag_evflags (s : State) (f : EventFlag) : (s.setFlag f).evflags = setFlagBit s.evflags f := rfl
@[simp] theorem State.setFlag_clkCfg (s : State) (f : EventFlag) : (s.setFlag f).clkCfg = s.clkCfg := rfl
@[simp] theorem State.setFlag_clkConfigured (s : State) (f : EventFlag) : (s.setFlag f).clkConfigured = s.clkConfigured := rfl
@[simp] theorem State.setFlag_unusedParked (s : State) (f : EventFlag) : (s.setFlag f).unusedParked = s.unusedParked := rfl
@[simp] theorem State.setFlag_gps (s : State) (f : EventFlag) : (s.setFlag f).gps = s.gps := rfl
@[simp] theorem State.setFlag_rf (s : State) (f : EventFlag) : (s.setFlag f).rf = s.rf := rfl
@[simp] theorem State.setFlag_oscFault (s : State) (f : EventFlag) : (s.setFlag f).oscFault = s.oscFault := rfl
@[simp] theorem State.setFlag_faultIe (s : State) (f : EventFlag) : (s.setFlag f).faultIe = s.faultIe := rfl
@[simp] theorem State.setFlag_xoscOn (s : State) (f : EventFlag) : (s.setFlag f).xoscOn = s.xoscOn := rfl
@[simp] theorem State.setFlag_oscOk (s : State) (f : EventFlag) : (s.setFlag f).oscOk = s.oscOk := rfl
@[simp] theorem State.setFlag_hb (s : State) (f : EventFlag) : (s.setFlag f).hb = s.hb := rfl
@[simp] theorem State.setFlag_sym (s : State) (f : EventFlag) : (s.setFlag f).sym = s.sym := rfl
@[simp] theorem State.setFlag_wdtCnt (s : State) (f : EventFlag) : (s.setFlag f).wdtCnt = s.wdtCnt := rfl
@[simp] theorem State.setFlag_extPend (s : State) (f : EventFlag) : (s.setFlag f).extPend = s.extPend := rfl
@[simp] theorem State.setFlag_history (s : State) (f : EventFlag) : (s.setFlag f).history = s.history ++ [⟨.cpu, .flagSet f.bit⟩] := rfl
@[simp] theorem State.setFlag_schedule (s : State) (f : EventFlag) : (s.setFlag f).schedule = s.schedule := rfl
@[simp] theorem State.setFlag_moment (s : State) (f : EventFlag) : (s.setFlag f).moment = s.moment := rfl

/-! ### returnInterrupt -/

@[simp] theorem State.returnInterrupt_params (s : State) (r : Bool) : (s.returnInterrupt r).params = s.params := by unfold State.returnInterrupt; split <;> rfl
@[simp] theorem State.returnInterrupt_program (s : State) (r : Bool) : (s.returnInterrupt r).program = s.program := by unfold State.returnInterrupt; split <;> rfl
@[simp] theorem State.returnInterrupt_pc (s : State) (r : Bool) : (s.returnInterrupt r).pc = s.pc := by unfold State.returnInterrupt; split <;> rfl
@[simp] theorem State.returnInterrupt_acc (s : State) (r : Bool) : (s.returnInterrupt r).acc = s.acc := by unfold State.returnInterrupt; split <;> rfl
@[simp] theorem State.returnInterrupt_gie (s : State) (r : Bool) : (s.returnInterrupt r).gie = s.gie := by unfold State.returnInterrupt; split <;> rfl
@[simp] theorem State.returnInterrupt_ctx (s : State) (r : Bool) : (s.returnInterrupt r).ctx = s.ctx := by unfold State.returnInterrupt; split <;> rfl
@[simp] theorem State.returnInterrupt_phase (s : State) (r : Bool) : (s.returnInterrupt r).phase = s.phase := by unfold State.returnInterrupt; split <;> rfl
@[simp] theorem State.returnInterrupt_initDone (s : State) (r : Bool) : (s.returnInterrupt r).initDone = s.initDone := by unfold State.returnInterrupt; split <;> rfl
@[simp] theorem State.returnInterrupt_fault (s : State) (r : Bool) : (s.returnInterrupt r).fault = s.fault := by unfold State.returnInterrupt; split <;> rfl
@[simp] theorem State.returnInterrupt_evflags (s : State) (r : Bool) : (s.returnInterrupt r).evflags = s.evflags := by unfold State.returnInterrupt; split <;> rfl
@[simp] theorem State.returnInterrupt_clkCfg (s : State) (r : Bool) : (s.returnInterrupt r).clkCfg = s.clkCfg := by unfold State.returnInterrupt; split <;> rfl
@[simp] theorem State.returnInterrupt_clkConfigured (s : State) (r : Bool) : (s.returnInterrupt r).clkConfigured = s.clkConfigured := by unfold State.returnInterrupt; split <;> rfl
@[simp] theorem State.returnInterrupt_unusedParked (s : State) (r : Bool) : (s.returnInterrupt r).unusedParked = s.unusedParked := by unfold State.returnInterrupt; split <;> rfl
@[simp] theorem State.returnInterrupt_gps (s : State) (r : Bool) : (s.returnInterrupt r).gps = s.gps := by unfold State.returnInterrupt; split <;> rfl
@[simp] theorem State.returnInterrupt_rf (s : State) (r : Bool) : (s.returnInterrupt r).rf = s.rf := by unfold State.returnInterrupt; split <;> rfl
@[simp] theorem State.returnInterrupt_oscFault (s : State) (r : Bool) : (s.returnInterrupt r).oscFault = s.oscFault := by unfold State.returnInterrupt; split <;> rfl
@[simp] theorem State.returnInterrupt_faultIe (s : State) (r : Bool) : (s.returnInterrupt r).faultIe = s.faultIe := by unfold State.returnInterrupt; split <;> rfl
@[simp] theorem State.returnInterrupt_xoscOn (s : State) (r : Bool) : (s.returnInterrupt r).xoscOn = s.xoscOn := by unfold State.returnInterrupt; split <;> rfl
@[simp] theorem State.returnInterrupt_oscOk (s : State) (r : Bool) : (s.returnInterrupt r).oscOk = s.oscOk := by unfold State.returnInterrupt; split <;> rfl
@[simp] theorem State.returnInterrupt_hb (s : State) (r : Bool) : (s.returnInterrupt r).hb = s.hb := by unfold State.returnInterrupt; split <;> rfl
@[simp] theorem State.returnInterrupt_sym (s : State) (r : Bool) : (s.returnInterrupt r).sym = s.sym := by unfold State.returnInterrupt; split <;> rfl
@[simp] theorem State.returnInterrupt_wdtCnt (s : State) (r : Bool) : (s.returnInterrupt r).wdtCnt = s.wdtCnt := by unfold State.returnInterrupt; split <;> rfl
@[simp] theorem State.returnInterrupt_extPend (s : State) (r : Bool) : (s.returnInterrupt r).extPend = s.extPend := by unfold State.returnInterrupt; split <;> rfl
@[simp] theorem State.returnInterrupt_schedule (s : State) (r : Bool) : (s.returnInterrupt r).schedule = s.schedule := by unfold State.returnInterrupt; split <;> rfl
@[simp] theorem State.returnInterrupt_moment (s : State) (r : Bool) : (s.returnInterrupt r).moment = s.moment := by unfold State.returnInterrupt; split <;> rfl

theorem State.returnInterrupt_mode (s : State) (r : Bool) :
    (s.returnInterrupt r).mode = if r = true ∧ s.mode = .sleep then .active else s.mode := by
  unfold State.returnInterrupt; split <;> rfl
theorem State.returnInterrupt_history (s : State) (r : Bool) :
    (s.returnInterrupt r).history = s.history ++ if r = true ∧ s.mode = .sleep then [⟨.cpu, .resume⟩] else [] := by
  unfold State.returnInterrupt; split <;> simp
@[simp] theorem State.returnInterrupt_false (s : State) : s.returnInterrupt false = s := by simp [State.returnInterrupt]

/-! ### watchdogReset -/

@[simp] theorem State.watchdogReset_params (s : State) (d : Bool) : (s.watchdogReset d).params = s.params := rfl
@[simp] theorem State.watchdogReset_program (s : State) (d : Bool) : (s.watchdogReset d).program = s.program := rfl
@[simp] theorem State.watchdogReset_pc (s : State) (d : Bool) : (s.watchdogReset d).pc = 0 := rfl
@[simp] theorem State.watchdogReset_acc (s : State) (d : Bool) : (s.watchdogReset d).acc = none := rfl
@[simp] theorem State.watchdogReset_gie (s : State) (d : Bool) : (s.watchdogReset d).gie = false := rfl
@[simp] theorem State.watchdogReset_mode (s : State) (d : Bool) : (s.watchdogReset d).mode = .active := rfl
@[simp] theorem State.watchdogReset_ctx (s : State) (d : Bool) : (s.watchdogReset d).ctx = .main := rfl
@[simp] theorem State.watchdogReset_phase (s : State) (d : Bool) : (s.watchdogReset d).phase = .fetch := rfl
@[simp] theorem State.watchdogReset_initDone (s : State) (d : Bool) : (s.watchdogReset d).initDone = false := rfl
@[simp] theorem State.watchdogReset_fault (s : State) (d : Bool) : (s.watchdogReset d).fault = s.fault := rfl
@[simp] theorem State.watchdogReset_evflags (s : State) (d : Bool) : (s.watchdogReset d).evflags = 0 := rfl
@[simp] theorem State.watchdogReset_clkCfg (s : State) (d : Bool) : (s.watchdogReset d).clkCfg = none := rfl
@[simp] theorem State.watchdogReset_clkConfigured (s : State) (d : Bool) : (s.watchdogReset d).clkConfigured = false := rfl
@[simp] theorem State.watchdogReset_unusedParked (s : State) (d : Bool) : (s.watchdogReset d).unusedParked = false := rfl
@[simp] theorem State.watchdogReset_gps (s : State) (d : Bool) : (s.watchdogReset d).gps = ModuleUnit.atReset := rfl
@[simp] theorem State.watchdogReset_rf (s : State) (d : Bool) : (s.watchdogReset d).rf = ModuleUnit.atReset := rfl
@[simp] theorem State.watchdogReset_oscFault (s : State) (d : Bool) : (s.watchdogReset d).oscFault = (!s.oscOk || d) := rfl
@[simp] theorem State.watchdogReset_faultIe (s : State) (d : Bool) : (s.watchdogReset d).faultIe = false := rfl
@[simp] theorem State.watchdogReset_xoscOn (s : State) (d : Bool) : (s.watchdogReset d).xoscOn = false := rfl
@[simp] theorem State.watchdogReset_oscOk (s : State) (d : Bool) : (s.watchdogReset d).oscOk = s.oscOk := rfl
@[simp] theorem State.watchdogReset_hb (s : State) (d : Bool) : (s.watchdogReset d).hb = Timer.atReset := rfl
@[simp] theorem State.watchdogReset_sym (s : State) (d : Bool) : (s.watchdogReset d).sym = Timer.atReset := rfl
@[simp] theorem State.watchdogReset_wdtCnt (s : State) (d : Bool) : (s.watchdogReset d).wdtCnt = 0 := rfl
@[simp] theorem State.watchdogReset_extPend (s : State) (d : Bool) : (s.watchdogReset d).extPend = false := rfl
@[simp] theorem State.watchdogReset_history (s : State) (d : Bool) : (s.watchdogReset d).history = s.history ++ [⟨.wdt, .wdtReset⟩] := rfl
@[simp] theorem State.watchdogReset_schedule (s : State) (d : Bool) : (s.watchdogReset d).schedule = s.schedule := rfl
@[simp] theorem State.watchdogReset_moment (s : State) (d : Bool) : (s.watchdogReset d).moment = s.moment := rfl

end Sys2Proof.Machine
end

