-- ==== Sys2Proof/Laws/Ops.lean ====
section
/-!
SUPPORT. One lemma per shared operation that says everything it can do: modular arithmetic, the program space, order of use, branches,
ticks, handlers.
-/

namespace Sys2Proof.Machine

/-! ### Modular arithmetic (R6) -/

/-- A value reduced modulo `2^w`, `w ≤ 32`, fits a word. -/
theorem ofNat_mod_toNat {w : Nat} (n : Nat) (h : w ≤ 32) : (BitVec.ofNat 32 (n % 2 ^ w)).toNat = n % 2 ^ w := by
  rw [BitVec.toNat_ofNat]
  exact Nat.mod_eq_of_lt (lt_of_lt_of_le (Nat.mod_lt _ (by positivity)) (Nat.pow_le_pow_right (by omega) h))

theorem addW_toNat {w : Nat} (a b : Word) (h : w ≤ 32) : (addW w a b).toNat = (a.toNat + b.toNat) % 2 ^ w :=
  ofNat_mod_toNat _ h

theorem addW_lt {w : Nat} (a b : Word) (h : w ≤ 32) : (addW w a b).toNat < 2 ^ w := by
  rw [addW_toNat a b h]
  exact Nat.mod_lt _ (by positivity)

theorem maxW_toNat {w : Nat} (h : w ≤ 32) : (maxW w).toNat = 2 ^ w - 1 := by
  rw [maxW, BitVec.toNat_ofNat]
  apply Nat.mod_eq_of_lt
  have := Nat.pow_le_pow_right (n := 2) (by omega) h
  have : 0 < 2 ^ w := by positivity
  omega

/-! ### The program space (R81) -/

theorem programWf_iff {p : List Word} : programWf p = true ↔ 1 ≤ p.length ∧ p.length ≤ maxProgram := by
  simp [programWf]

/-- A placed word lies inside the program, which grows only as far as it must. -/
theorem placeWord_length (p : List Word) (k : Nat) (w : Word) : (placeWord p k w).length = max p.length (k + 1) := by
  induction p, k, w using placeWord.induct <;> simp_all [placeWord]

/-- Placing a word gives the canonical form of the program space. -/
theorem placeWord_wf {p : List Word} {k : Nat} {w : Word} (hp : p.length ≤ maxProgram) (hk : k < maxProgram) :
    programWf (placeWord p k w) = true := by
  rw [programWf_iff, placeWord_length]
  omega

/-- The word placed is the word fetched. -/
theorem fetchWord_placeWord (p : List Word) (k : Nat) (w : Word) : fetchWord (placeWord p k w) k = some w := by
  induction p, k, w using placeWord.induct <;> simp_all [placeWord, fetchWord]

/-- Every word below the end of the program is kept where no word is placed. -/
theorem fetchWord_placeWord_other {p : List Word} {k j : Nat} {w : Word} (hj : j < p.length) (h : j ≠ k) :
    fetchWord (placeWord p k w) j = fetchWord p j := by
  induction p, k, w using placeWord.induct generalizing j <;> cases j <;> simp_all [placeWord, fetchWord]

theorem fetchWord_eq_none {p : List Word} {k : Nat} : fetchWord p k = none ↔ p.length ≤ k := by
  simp [fetchWord]

theorem fetchWord_lt {p : List Word} {k : Nat} {w : Word} (h : fetchWord p k = some w) : k < p.length := by
  by_contra hc
  rw [fetchWord_eq_none.2 (by omega)] at h
  cases h

/-- The launched program is in canonical form, whatever the free value is. -/
theorem reset_program_wf : programWf State.reset.program = true := by
  simp [programWf_iff, State.reset, Config.launchProgram, maxProgram]

/-- A load keeps the canonical form of the program space. -/
theorem placeNext_keeps_wf (s : State) (w : Word) (h : programWf s.program = true) :
    programWf (s.placeNext w).program = true := by
  refine placeWord_wf (programWf_iff.1 h).2 ?_
  split
  · assumption
  · decide

/-! ### Commands -/

/-- A core command either runs its body or records NotInitialised (R267). -/
theorem coreCommand_next {i : Instr} {s s' : State} {body : State → State} (h : coreCommand i s body = .next s') :
    (s.initDone = true ∧ s' = body s) ∨
      (s.initDone = false ∧ s' = s.raise .notInitialised (some (encode i))) := by
  unfold coreCommand at h
  split at h <;> rename_i hd <;> cases h
  · exact .inl ⟨hd, rfl⟩
  · exact .inr ⟨Bool.eq_false_iff.2 hd, rfl⟩

/-- A branch either records UnwrittenAcc or writes `pc` (R263, R264). -/
theorem branchOnAcc_next {i : Instr} {s s' : State} {mask : BitVec 8} {target : BitVec 16} {cond : Word → Bool}
    (h : branchOnAcc i s mask target cond = .next s') :
    (s.acc = none ∧ s' = s.raise .unwrittenAcc (some (encode i))) ∨
      (s.acc.isSome = true ∧ ((s' = { s with pc := targetIndex target }) ∨ s' = { s with pc := s.pc + 1 })) := by
  unfold branchOnAcc at h
  split at h <;> cases h <;> rename_i ha
  · exact .inl ⟨ha, rfl⟩
  · refine .inr ⟨by simp [ha], ?_⟩
    split
    · exact .inl rfl
    · exact .inr rfl

/-- REG_READ either records a model fault or writes `acc` and `pc` (R261). -/
theorem execRegRead_next {idx : BitVec 8} {s s' : State} (h : execRegRead idx s = .next s') :
    (∃ code, s' = s.raise code (some (encode (.regRead idx)))) ∨
      ∃ v, s' = { s with acc := some v, pc := s.pc + 1 } := by
  unfold execRegRead at h
  split at h
  · cases h; exact .inl ⟨_, rfl⟩
  · split at h <;> cases h
    · exact .inl ⟨_, rfl⟩
    · exact .inr ⟨_, rfl⟩

/-! ### Timers and handlers -/

/-- A tick that answers had both registers known (R190). -/
theorem tickTimer_next {t : TimerId} {s s' : State} (h : tickTimer t s = .next s') :
    ∃ c r, (s.timer t).cnt = some c ∧ (s.timer t).ccr = some r ∧
      s' = s.withTimer t { s.timer t with
        cnt := some (addW (s.params.width t) c 1)
        pend := (s.timer t).pend || addW (s.params.width t) c 1 == r } := by
  unfold tickTimer at h
  split at h
  · cases h; exact ⟨_, _, ‹_›, ‹_›, rfl⟩
  · cases h

/-- The heartbeat handler re-arms and returns with the resume request WAKE_REQ makes (R200). -/
theorem isrHb_next {s s' : State} (h : isrHb s = .next s') :
    ∃ c, s.hb.ccr = some c ∧
      s' = (rearm .hb .hbDue c s).returnInterrupt (flagIsSet (rearm .hb .hbDue c s).evflags .wakeReq) := by
  unfold isrHb at h
  split at h <;> cases h
  exact ⟨_, ‹_›, rfl⟩

/-- The symbol handler re-arms and returns without a resume request (R202). -/
theorem isrSym_next {s s' : State} (h : isrSym s = .next s') :
    ∃ c, s.sym.ccr = some c ∧ s' = rearm .sym .symDue c s := by
  unfold isrSym at h
  split at h <;> cases h
  exact ⟨_, ‹_›, by simp⟩

end Sys2Proof.Machine
end

