-- ==== Sys2Proof/Laws/Schedule.lean ====
section
/-!
SUPPORT. What the scheduler can choose, and what each choice's being enabled means (00_scope.md rule R9, 60_exceptions.md rule R284).
-/

namespace Sys2Proof.Machine

theorem alive_iff {s : State} : s.alive = true ↔ s.fault = none ∧ s.mode ≠ .halted := by
  simp [State.alive]

theorem nmiAccepted_iff {s : State} :
    nmiAccepted s = true ↔ s.alive = true ∧ s.ctx = .main ∧ s.oscFault = true ∧ s.faultIe = true := by
  simp [nmiAccepted, irqPending, irqEnabled, and_assoc]

theorem maskableAccepted_iff {s : State} {v : IrqSource} :
    maskableAccepted s v = true ↔ s.alive = true ∧ s.ctx = .main ∧ s.gie = true ∧ irqPending s v = true ∧
      irqEnabled s v = true ∧ nmiAccepted s = false := by
  simp [maskableAccepted, and_assoc]

/-- Every enabled choice belongs to a state that can step. -/
theorem alive_of_enabled {s : State} {c : Choice} (h : enabled s c = true) : s.alive = true := by
  cases c <;> simp_all [enabled, nmiAccepted_iff, maskableAccepted_iff, extRequestEnabled]

/-- Being enabled does not depend on the scheduler's bookkeeping. -/
@[simp] theorem enabled_consume (s : State) (c : Choice) : enabled s.consume c = enabled s c := by
  cases c <;> rfl

theorem mem_allChoices (c : Choice) : c ∈ allChoices := by
  cases c with
  | isrExt r => cases r <;> decide
  | wdtTick f => cases f <;> decide
  | _ => decide

theorem freePick_enabled {s : State} {c : Choice} (h : freePick s = some c) : enabled s c = true := by
  have := List.mem_of_getElem? h
  simpa [enabledChoices, mem_allChoices] using this

/-- The step the scheduler picks is enabled. -/
theorem pick_enabled {s : State} {c : Choice} (h : pick s = some c) : enabled s c = true := by
  unfold pick at h
  split at h
  · exact freePick_enabled h
  · split at h
    · cases h; assumption
    · exact freePick_enabled h

/-- A step that answers takes the choice picked. -/
theorem step_next {s s' : State} (h : step s = .next s') : ∃ c, pick s = some c ∧ take c s.consume = .next s' := by
  unfold step stepOnce at h
  split at h
  · exact ⟨_, ‹_›, h⟩
  · cases h

/-- A choice pinned first is picked where it is enabled. -/
theorem pick_pinned {s : State} {c : Choice} {cs : List Choice} (hs : s.schedule = c :: cs) (h : enabled s c = true) :
    pick s = some c := by
  simp [pick, hs, h]

end Sys2Proof.Machine
end

