-- ==== Sys2Proof/Laws/MainLine.lean ====
section
/-!
SUPPORT. Everything one step of main-line code can do, said once: a later proof takes cases on it and unfolds no command.
-/

namespace Sys2Proof.Machine

/-- What a main-line step from `s` answers: one constructor per effect, with what the step checked first. -/
inductive MainCase (s : State) : State → Prop where
  | raised (code : FaultCode) (w : Option Word) (hp : s.phase = .fetch) : MainCase s (s.raise code w)
  | initEntry (hp : s.phase = .fetch) (hpc : s.pc < s.program.length) (hd : s.initDone = false) :
      MainCase s { s with phase := .init .i0 }
  | moduleEntry (m : ModuleId) (target : ModState) (hp : s.phase = .fetch) (hpc : s.pc < s.program.length)
      (hd : s.initDone = true) : MainCase s (enterModuleSequence m target s)
  | feed (hp : s.phase = .fetch) (hpc : s.pc < s.program.length) (hd : s.initDone = true) :
      MainCase s ({ s with wdtCnt := 0 }.emit .cpu .wdtFeed).advance
  | sleep (hp : s.phase = .fetch) (hpc : s.pc < s.program.length) (hd : s.initDone = true) :
      MainCase s ({ s with gie := true, mode := .sleep, pc := s.pc + 1 }.emit .cpu .sleep)
  | delay (u : DelayUnit) (n : Word) (hp : s.phase = .fetch) (hpc : s.pc < s.program.length)
      (hd : s.initDone = true) : MainCase s (s.emit .cpu (.delay u n)).advance
  | symEntry (hp : s.phase = .fetch) (hpc : s.pc < s.program.length) (hd : s.initDone = true) :
      MainCase s (symResetW1 s)
  | flagsRead (hp : s.phase = .fetch) (hpc : s.pc < s.program.length) (hd : s.initDone = true) :
      MainCase s ({ s with acc := some (flagsToAcc s.evflags) }.emit .cpu (.flagsRead s.evflags)).advance
  | flagsClear (mask : BitVec 3) (hp : s.phase = .fetch) (hpc : s.pc < s.program.length) (hd : s.initDone = true) :
      MainCase s ({ s with evflags := clearFlagBits s.evflags mask }.emit .cpu (.flagsClear mask)).advance
  | flagsXchg (mask : BitVec 3) (hp : s.phase = .fetch) (hpc : s.pc < s.program.length) (hd : s.initDone = true) :
      MainCase s ({ s with
          evflags := clearFlagBits s.evflags mask
          acc := some (flagsToAcc (s.evflags &&& mask)) }.emit .cpu (.flagsXchg mask (s.evflags &&& mask))).advance
  | irq (b : Bool) (hp : s.phase = .fetch) (hpc : s.pc < s.program.length) (hd : s.initDone = true) :
      MainCase s { s with gie := b }.advance
  | regRead (v : Word) (hp : s.phase = .fetch) (hpc : s.pc < s.program.length) :
      MainCase s { s with acc := some v, pc := s.pc + 1 }
  | goTo (k : Nat) (hp : s.phase = .fetch) (hpc : s.pc < s.program.length) (hk : k ≤ max (s.pc + 1) 65535) :
      MainCase s { s with pc := k }
  | halt (hp : s.phase = .fetch) (hpc : s.pc < s.program.length) :
      MainCase s ({ s with mode := .halted }.emit .cpu .halt)
  | initStep (k : InitStep) (hp : s.phase = .init k) : MainCase s (initMicro k s)
  | disableStep (m : ModuleId) (k : DisableStep) (hp : s.phase = .disable m k) : MainCase s (disableMicro m k s)
  | enableStep (m : ModuleId) (k : EnableStep) (hp : s.phase = .enable m k) : MainCase s (enableMicro m k s)
  | oscStep (k : OscStep) (hp : s.phase = .rfOsc k) : MainCase s (oscMicro k s)
  | symStep (hp : s.phase = .symReset) : MainCase s (symResetW2 s)

/-- A branch target fits 16 bits (R102). -/
theorem targetIndex_le (t : BitVec 16) : targetIndex t ≤ 65535 := Nat.le_of_lt_succ t.isLt

/-- A core command's step is its body's or a raise (R267). -/
theorem coreCommand_cases {i : Instr} {s s' : State} {body : State → State} (hp : s.phase = .fetch)
    (h : coreCommand i s body = .next s') (hb : s.initDone = true → MainCase s (body s)) : MainCase s s' := by
  obtain ⟨hd, rfl⟩ | ⟨-, rfl⟩ := coreCommand_next h
  · exact hb hd
  · exact .raised _ _ hp

/-- A branch's step is a raise or a write of `pc` (R263, R264). -/
theorem branchOnAcc_cases {i : Instr} {s s' : State} {mask : BitVec 8} {target : BitVec 16} {cond : Word → Bool}
    (hp : s.phase = .fetch) (hpc : s.pc < s.program.length) (h : branchOnAcc i s mask target cond = .next s') :
    MainCase s s' := by
  obtain ⟨-, rfl⟩ | ⟨-, rfl | rfl⟩ := branchOnAcc_next h
  · exact .raised _ _ hp
  · exact .goTo _ hp hpc (le_max_of_le_right (targetIndex_le _))
  · exact .goTo _ hp hpc (le_max_left _ _)

/-- Every command's own step is one of the cases. -/
theorem exec_cases {i : Instr} {s s' : State} (hp : s.phase = .fetch) (hpc : s.pc < s.program.length)
    (h : exec i s = .next s') : MainCase s s' := by
  cases i with
  | initHw =>
    simp only [exec, execInitHw] at h
    split at h <;> cases h
    · exact .raised _ _ hp
    · exact .initEntry hp hpc (Bool.eq_false_iff.2 ‹_›)
  | feedWdt => simp only [exec, execFeedWdt] at h; exact coreCommand_cases hp h (.feed hp hpc)
  | cfgGpsDisabled => simp only [exec, execCfgGpsDisabled] at h; exact coreCommand_cases hp h (.moduleEntry .gps .disabled hp hpc)
  | cfgGpsEnabled => simp only [exec, execCfgGpsEnabled] at h; exact coreCommand_cases hp h (.moduleEntry .gps .enabled hp hpc)
  | cfgRfDisabled => simp only [exec, execCfgRfDisabled] at h; exact coreCommand_cases hp h (.moduleEntry .rf .disabled hp hpc)
  | cfgRfEnabled => simp only [exec, execCfgRfEnabled] at h; exact coreCommand_cases hp h (.moduleEntry .rf .enabled hp hpc)
  | sleep => simp only [exec, execSleep] at h; exact coreCommand_cases hp h (.sleep hp hpc)
  | delayMs n => simp only [exec, execDelayMs] at h; exact coreCommand_cases hp h (.delay .ms (countValue n) hp hpc)
  | delayUs n => simp only [exec, execDelayUs] at h; exact coreCommand_cases hp h (.delay .us (countValue n) hp hpc)
  | resetSym => simp only [exec, execResetSym] at h; exact coreCommand_cases hp h (.symEntry hp hpc)
  | flagsRead => simp only [exec, execFlagsRead] at h; exact coreCommand_cases hp h (.flagsRead hp hpc)
  | flagsClear mask => simp only [exec, execFlagsClear] at h; exact coreCommand_cases hp h (.flagsClear mask hp hpc)
  | flagsXchg mask => simp only [exec, execFlagsXchg] at h; exact coreCommand_cases hp h (.flagsXchg mask hp hpc)
  | irqOff => simp only [exec, execIrqOff] at h; exact coreCommand_cases hp h (.irq false hp hpc)
  | irqOn => simp only [exec, execIrqOn] at h; exact coreCommand_cases hp h (.irq true hp hpc)
  | regRead idx =>
    obtain ⟨_, rfl⟩ | ⟨v, rfl⟩ := execRegRead_next h
    · exact .raised _ _ hp
    · exact .regRead v hp hpc
  | jmp target => cases h; exact .goTo _ hp hpc (le_max_of_le_right (targetIndex_le _))
  | bz mask target => simp only [exec, execBz] at h; exact branchOnAcc_cases hp hpc h
  | bnz mask target => simp only [exec, execBnz] at h; exact branchOnAcc_cases hp hpc h
  | halt => cases h; exact .halt hp hpc

/-- Every step of main-line code is one of the cases. -/
theorem mainStep_cases {s s' : State} (h : mainStep s = .next s') : MainCase s s' := by
  unfold mainStep at h
  split at h
  case h_1 hp =>
    unfold fetchStep at h
    split at h
    · cases h; exact .raised _ _ hp
    · split at h
      · cases h; exact .raised _ _ hp
      · exact exec_cases hp (fetchWord_lt ‹_›) h
  all_goals cases h
  · exact .initStep _ ‹_›
  · exact .disableStep _ _ ‹_›
  · exact .enableStep _ _ ‹_›
  · exact .oscStep _ ‹_›
  · exact .symStep ‹_›

end Sys2Proof.Machine
end

