-- ==== Sys2Proof/Laws/PerInstr.lean ====
section
/-!
SUPPORT. Statements made once per command: what fields the word of a command has (30_encoding.md rules R100 to R107).
-/

namespace Sys2Proof.Laws.EncodedOpcode

/-- The three fields of a command's word are its own, and its opcode is the one its row of opcode_table.json fixes. -/
def Statement (i : Instr) : Prop :=
  opcField (encode i) = i.opcode ∧ aField (encode i) = i.aOperand ∧ immField (encode i) = i.immOperand ∧
    (Machine.opcodeRows[Machine.rowOf i]?).map (fun r => opcField r.value) = some i.opcode

/-- The field part, for every command at once. -/
theorem of_row {i : Instr} (h : (Machine.opcodeRows[Machine.rowOf i]?).map (fun r => opcField r.value) = some i.opcode) :
    Statement i := ⟨opcField_mkWord _ _ _, aField_mkWord _ _ _, immField_mkWord _ _ _, h⟩

theorem initHw : Statement .initHw := of_row (by rfl)

theorem feedWdt : Statement .feedWdt := of_row (by rfl)

theorem cfgGpsDisabled : Statement .cfgGpsDisabled := of_row (by rfl)

theorem cfgGpsEnabled : Statement .cfgGpsEnabled := of_row (by rfl)

theorem cfgRfDisabled : Statement .cfgRfDisabled := of_row (by rfl)

theorem cfgRfEnabled : Statement .cfgRfEnabled := of_row (by rfl)

theorem sleep : Statement .sleep := of_row (by rfl)

theorem delayMs (n : BitVec 16) : Statement (.delayMs n) := of_row (by rfl)

theorem delayUs (n : BitVec 16) : Statement (.delayUs n) := of_row (by rfl)

theorem resetSym : Statement .resetSym := of_row (by rfl)

theorem flagsRead : Statement .flagsRead := of_row (by rfl)

theorem flagsClear (mask : BitVec 3) : Statement (.flagsClear mask) := of_row (by rfl)

theorem flagsXchg (mask : BitVec 3) : Statement (.flagsXchg mask) := of_row (by rfl)

theorem irqOff : Statement .irqOff := of_row (by rfl)

theorem irqOn : Statement .irqOn := of_row (by rfl)

theorem regRead (idx : BitVec 8) : Statement (.regRead idx) := of_row (by rfl)

theorem jmp (target : BitVec 16) : Statement (.jmp target) := of_row (by rfl)

theorem bz (mask : BitVec 8) (target : BitVec 16) : Statement (.bz mask target) := of_row (by rfl)

theorem bnz (mask : BitVec 8) (target : BitVec 16) : Statement (.bnz mask target) := of_row (by rfl)

theorem halt : Statement .halt := of_row (by rfl)

end Sys2Proof.Laws.EncodedOpcode
end

