-- ==== Sys2Proof/Laws/Transitions.lean ====
section
/-!
SUPPORT. Everything a step of the handlers, the timers, the watchdog and the environment can do, said once, with no condition left
inside a state: a later proof takes cases on it and unfolds no handler.
-/

namespace Sys2Proof.Machine

/-- The state a timer's handler leaves before it returns (R200, R202), every field written out. -/
theorem rearm_hb (s : State) (c : Word) :
    rearm .hb .hbDue c s = { s with
      hb := { s.hb with pend := false, ccr := some (addW s.params.wHb c s.params.hbInc) }
      evflags := setFlagBit s.evflags .hbDue
      history := s.history ++ [⟨.cpu, .isr .hb (addW s.params.wHb c s.params.hbInc)⟩, ⟨.cpu, .flagSet 0⟩] } := by
  simp [rearm, State.setFlag, State.emit, State.withTimer, State.timer, Params.width, Params.increment, EventFlag.bit]

theorem rearm_sym (s : State) (c : Word) :
    rearm .sym .symDue c s = { s with
      sym := { s.sym with pend := false, ccr := some (addW s.params.wSym c s.params.symInc) }
      evflags := setFlagBit s.evflags .symDue
      history := s.history ++ [⟨.cpu, .isr .sym (addW s.params.wSym c s.params.symInc)⟩, ⟨.cpu, .flagSet 1⟩] } := by
  simp [rearm, State.setFlag, State.emit, State.withTimer, State.timer, Params.width, Params.increment, EventFlag.bit]

/-- What any choice but main-line code answers from `s`. -/
inductive OtherCase (s : State) : Choice → State → Prop where
  | nmiEntry : OtherCase s .nmiEntry { s with ctx := .nmi .n1, history := s.history ++ [⟨.cpu, .nmiEnter⟩] }
  | nmiIdle (hc : s.ctx = .main) : OtherCase s .nmiStep s
  | nmiClear (hc : s.ctx = .nmi .n1) : OtherCase s .nmiStep { s with
      ctx := .nmi .n2
      oscFault := s.oscFault && !s.oscOk
      history := s.history ++ [⟨.cpu, .faultClear .nmi⟩] }
  | nmiWait (hc : s.ctx = .nmi .n2) : OtherCase s .nmiStep { s with ctx := .nmi .n3 }
  | nmiRetry (hc : s.ctx = .nmi .n3) (hf : s.oscFault = true) : OtherCase s .nmiStep { s with
      ctx := .nmi .n1
      history := s.history ++ [⟨.cpu, .faultCheck .nmi true⟩] }
  | nmiExit (hc : s.ctx = .nmi .n3) (hf : s.oscFault = false) : OtherCase s .nmiStep { s with
      ctx := .main
      history := s.history ++ [⟨.cpu, .faultCheck .nmi false⟩, ⟨.cpu, .nmiExit⟩] }
  | isrHb (c : Word) (hc : s.hb.ccr = some c) : OtherCase s .isrHb { s with
      hb := { s.hb with pend := false, ccr := some (addW s.params.wHb c s.params.hbInc) }
      evflags := setFlagBit s.evflags .hbDue
      history := s.history ++ [⟨.cpu, .isr .hb (addW s.params.wHb c s.params.hbInc)⟩, ⟨.cpu, .flagSet 0⟩] }
  | isrHbWake (c : Word) (hc : s.hb.ccr = some c) (hw : flagIsSet s.evflags .wakeReq = true) (hm : s.mode = .sleep) :
      OtherCase s .isrHb { s with
        hb := { s.hb with pend := false, ccr := some (addW s.params.wHb c s.params.hbInc) }
        evflags := setFlagBit s.evflags .hbDue
        mode := .active
        history := s.history ++
          [⟨.cpu, .isr .hb (addW s.params.wHb c s.params.hbInc)⟩, ⟨.cpu, .flagSet 0⟩, ⟨.cpu, .resume⟩] }
  | isrSym (c : Word) (hc : s.sym.ccr = some c) : OtherCase s .isrSym { s with
      sym := { s.sym with pend := false, ccr := some (addW s.params.wSym c s.params.symInc) }
      evflags := setFlagBit s.evflags .symDue
      history := s.history ++ [⟨.cpu, .isr .sym (addW s.params.wSym c s.params.symInc)⟩, ⟨.cpu, .flagSet 1⟩] }
  | isrExt (r : Bool) : OtherCase s (.isrExt r) { s with
      extPend := false
      evflags := setFlagBit s.evflags .wakeReq
      history := s.history ++ [⟨.cpu, .flagSet 2⟩, ⟨.cpu, .extIsr r⟩] }
  | isrExtWake (hm : s.mode = .sleep) : OtherCase s (.isrExt true) { s with
      extPend := false
      evflags := setFlagBit s.evflags .wakeReq
      mode := .active
      history := s.history ++ [⟨.cpu, .flagSet 2⟩, ⟨.cpu, .extIsr true⟩, ⟨.cpu, .resume⟩] }
  | tickHb (c r : Word) (hc : s.hb.cnt = some c) (hr : s.hb.ccr = some r) : OtherCase s .tickHb { s with
      hb := { s.hb with
        cnt := some (addW s.params.wHb c 1)
        pend := s.hb.pend || addW s.params.wHb c 1 == r } }
  | tickSym (c r : Word) (hc : s.sym.cnt = some c) (hr : s.sym.ccr = some r) : OtherCase s .tickSym { s with
      sym := { s.sym with
        cnt := some (addW s.params.wSym c 1)
        pend := s.sym.pend || addW s.params.wSym c 1 == r } }
  | wdtCount (f : Bool) (hw : s.wdtCnt + 1 ≠ s.params.wdtTimeout) :
      OtherCase s (.wdtTick f) { s with wdtCnt := s.wdtCnt + 1 }
  | wdtReset (f : Bool) (hw : s.wdtCnt + 1 = s.params.wdtTimeout) : OtherCase s (.wdtTick f) (s.watchdogReset f)
  | oscBad (ho : s.oscOk = true) : OtherCase s .oscChange { s with oscOk := false, oscFault := true }
  | oscGood (ho : s.oscOk = false) : OtherCase s .oscChange { s with oscOk := true }
  | extReq : OtherCase s .extReq { s with extPend := true }

/-- The WAKE_REQ bit is not the one the heartbeat handler sets (R200, R61). -/
theorem wakeReq_setFlagBit_hbDue (v : BitVec 3) :
    flagIsSet (setFlagBit v .hbDue) .wakeReq = flagIsSet v .wakeReq := by
  simp [flagIsSet, setFlagBit, EventFlag.bit]

theorem nmiMicro_cases (k : NmiStep) (s : State) (h : s.ctx = .nmi k) : OtherCase s .nmiStep (nmiMicro k s) := by
  cases k with
  | n1 =>
    have : nmiMicro .n1 s = { s with
        ctx := .nmi .n2
        oscFault := s.oscFault && !s.oscOk
        history := s.history ++ [⟨.cpu, .faultClear .nmi⟩] } := by
      cases ho : s.oscOk <;> simp [nmiMicro, State.clearOscFault, State.emit, ho]
    rw [this]; exact .nmiClear h
  | n2 => exact .nmiWait h
  | n3 =>
    cases hf : s.oscFault
    · have : nmiMicro .n3 s = { s with
          ctx := .main
          oscFault := s.oscFault
          history := s.history ++ [⟨.cpu, .faultCheck .nmi false⟩, ⟨.cpu, .nmiExit⟩] } := by
        simp [nmiMicro, State.returnNmi, State.emit, hf]
      rw [this]; exact .nmiExit h hf
    · have : nmiMicro .n3 s = { s with
          ctx := .nmi .n1
          oscFault := s.oscFault
          history := s.history ++ [⟨.cpu, .faultCheck .nmi true⟩] } := by
        simp [nmiMicro, State.emit, hf]
      rw [this]; exact .nmiRetry h hf

/-- Every transition but main-line code's is one of the cases. -/
theorem take_cases {c : Choice} {s s' : State} (h : take c s = .next s') :
    (c = .main ∧ MainCase s s') ∨ OtherCase s c s' := by
  cases c with
  | main => exact .inl ⟨rfl, mainStep_cases h⟩
  | nmiEntry => cases h; exact .inr .nmiEntry
  | nmiStep =>
    cases h
    unfold nmiHandlerStep
    split
    · exact .inr (.nmiIdle ‹_›)
    · exact .inr (nmiMicro_cases _ _ ‹_›)
  | isrHb =>
    obtain ⟨c, hc, rfl⟩ := isrHb_next h
    rw [rearm_hb]
    unfold State.returnInterrupt
    split
    · rename_i hw
      simp only [wakeReq_setFlagBit_hbDue] at hw
      simp only [State.emit, List.append_assoc, List.cons_append, List.nil_append]
      exact .inr (.isrHbWake c hc hw.1 hw.2)
    · exact .inr (.isrHb c hc)
  | isrSym =>
    obtain ⟨c, hc, rfl⟩ := isrSym_next h
    rw [rearm_sym]
    exact .inr (.isrSym c hc)
  | isrExt r =>
    cases h
    unfold Machine.isrExt State.returnInterrupt
    split
    · rename_i hw
      obtain ⟨rfl, hm⟩ := hw
      simp only [State.emit, State.setFlag, EventFlag.bit, List.append_assoc, List.cons_append, List.nil_append]
      exact .inr (.isrExtWake hm)
    · simp only [State.emit, State.setFlag, EventFlag.bit, List.append_assoc, List.cons_append, List.nil_append]
      exact .inr (.isrExt r)
  | tickHb => obtain ⟨c, r, hc, hr, rfl⟩ := tickTimer_next h; exact .inr (.tickHb c r hc hr)
  | tickSym => obtain ⟨c, r, hc, hr, rfl⟩ := tickTimer_next h; exact .inr (.tickSym c r hc hr)
  | wdtTick f =>
    cases h
    unfold Machine.wdtTick
    split
    · exact .inr (.wdtReset f ‹_›)
    · exact .inr (.wdtCount f ‹_›)
  | oscChange =>
    cases h
    unfold Machine.oscChange
    cases ho : s.oscOk
    · exact .inr (.oscGood ho)
    · exact .inr (.oscBad ho)
  | extReq => cases h; exact .inr .extReq

/-- Every step that answers is a case of the transition of an enabled choice. -/
theorem step_cases {s s' : State} (h : step s = .next s') :
    ∃ c, pick s = some c ∧ enabled s c = true ∧
      ((c = .main ∧ MainCase s.consume s') ∨ OtherCase s.consume c s') := by
  obtain ⟨c, hp, ht⟩ := step_next h
  exact ⟨c, hp, pick_enabled hp, take_cases ht⟩

end Sys2Proof.Machine
end

