-- ==== Sys2Proof/Tests/Slice0.lean ====
section
/-!
SUPPORT. The author's own tests: expected values are the vectors of 95_test_vectors.md (cited as V<n>), which follow from the rules;
and one witness for the hypotheses of each obligation, at a boundary value where a clause has a range.
-/

namespace Sys2Proof.Tests

open Sys2Proof Sys2Proof.Machine

/-! ### Well-formedness and decoding -/

theorem test_wellFormed_last_register : (Instr.regRead 0x0F).wellFormed = true := by decide

/-- R69: an index from 0x10 names no register. -/
theorem test_wellFormed_refuses_reserved_index : (Instr.regRead 0x10).wellFormed = false := by decide

theorem test_decode_initHw : decode 0x01000000 = .ok (.initHw) := by decide
theorem test_decode_feedWdt : decode 0x02000000 = .ok (.feedWdt) := by decide
theorem test_decode_cfgGpsDisabled : decode 0x03000000 = .ok (.cfgGpsDisabled) := by decide
theorem test_decode_cfgGpsEnabled : decode 0x03010000 = .ok (.cfgGpsEnabled) := by decide
theorem test_decode_cfgRfDisabled : decode 0x03020000 = .ok (.cfgRfDisabled) := by decide
theorem test_decode_cfgRfEnabled : decode 0x03030000 = .ok (.cfgRfEnabled) := by decide
theorem test_decode_sleep : decode 0x04000000 = .ok (.sleep) := by decide
theorem test_decode_delayMs : decode 0x0500FFFF = .ok (.delayMs 65535) := by decide
theorem test_decode_delayUs : decode 0x06000032 = .ok (.delayUs 50) := by decide
theorem test_decode_resetSym : decode 0x07000000 = .ok (.resetSym) := by decide
theorem test_decode_flagsRead : decode 0x08000000 = .ok (.flagsRead) := by decide
theorem test_decode_flagsClear : decode 0x09070000 = .ok (.flagsClear 7) := by decide
theorem test_decode_flagsXchg : decode 0x0A040000 = .ok (.flagsXchg 4) := by decide
theorem test_decode_irqOff : decode 0x0B000000 = .ok (.irqOff) := by decide
theorem test_decode_irqOn : decode 0x0C000000 = .ok (.irqOn) := by decide
theorem test_decode_regRead : decode 0x200F0000 = .ok (.regRead 0x0F) := by decide
theorem test_decode_jmp : decode 0x3000FFFF = .ok (.jmp 65535) := by decide
theorem test_decode_bz : decode 0x31FF0004 = .ok (.bz 0xFF 4) := by decide
theorem test_decode_bnz : decode 0x32040000 = .ok (.bnz 0x04 0) := by decide
theorem test_decode_halt : decode 0x3F000000 = .ok (.halt) := by decide

/-- V2.1, V2.30, V2.36, V2.45, V2.46. -/
theorem test_decode_unknown_opcodes :
    ([0x00000000, 0x0D000000, 0x21000000, 0x3E000000, 0xFFFFFFFF] : List Word).map decode
      = List.replicate 5 (.error .unknownOpcode) := by decide

/-- V2.3, V2.4, V2.10, V2.11, V2.12, V2.16. -/
theorem test_decode_reserved_fields_one :
    ([0x01000001, 0x01010000, 0x03040000, 0x03810000, 0x03010001, 0x05010000] : List Word).map decode
      = List.replicate 6 (.error .reservedField) := by decide

/-- V2.23, V2.24, V2.26, V2.29, V2.35, V2.39, V2.44. -/
theorem test_decode_reserved_fields_two :
    ([0x09080000, 0x09010001, 0x0AF00000, 0x0C000100, 0x20010001, 0x30010003, 0x3F000001] : List Word).map decode
      = List.replicate 7 (.error .reservedField) := by decide

/-- V2.33, V2.34. -/
theorem test_decode_reserved_indices :
    decode 0x20100000 = .error .reservedIndex ∧ decode 0x20FF0000 = .error .reservedIndex := by decide

/-- R83: the least significant byte of a stored word comes first. -/
theorem test_decodeBytes_little_endian :
    decodeBytes [0x06, 0x00, 0x08, 0x32, 0xAA] = .ok (.bnz 0x08 6, [0xAA]) := by decide

theorem test_decodeBytes_truncated : decodeBytes [0x00, 0x00, 0x3F] = .error .truncated := by decide

theorem test_decodeTableWord : decodeTableWord 32 0x0500000A = some (.delayMs 10) := by decide

/-! ### A small initialised machine -/

/-- PV of 95_test_vectors.md section 0; values the vectors do not use are 1. -/
def pv : Params := { Params.smallest with
  wHb := 16
  wSym := 16
  hbInc := 0x8000
  hbFirst := 0x0010
  symInc := 0x028F
  symFirst := 0x0008
  wdtTimeout := 1000
  serClkGps := 1
  serClkRf := 3
  fXosc := .rational 2
  baudPinned := [⟨.rational 1, .rational 1, ⟨0x0068, 0x02⟩⟩, ⟨.rational 2, .rational 1, ⟨0x0010, 0x00⟩⟩] }

/-- A module as INIT_HW leaves it (R142). -/
def parkedModule : ModuleUnit := ⟨.disabled, some .off, some .parked, some .held, none⟩

/-- Reset with the draws of V3.1: the oscillator condition good, the fault flag 1. -/
def boot : State := { State.reset with params := pv, oscOk := true, oscFault := true }

/-- The state INIT_HW leaves (R142, V3.1), HALT at `pc`. -/
def ready : State := { boot with
  program := [0x01000000, 0x3F000000]
  pc := 1
  initDone := true
  clkCfg := some pv.clkCfg
  clkConfigured := true
  unusedParked := true
  gps := parkedModule
  rf := parkedModule
  hb := ⟨some 0, some 0x0010, true, true, false⟩
  sym := ⟨some 0, some 0x0008, true, true, false⟩ }

/-- The scheduler's next choice pinned. -/
def pinned (s : State) (c : Choice) : State := { s with schedule := [c] }

/-- One step of main-line code on a command word placed at `pc`. -/
def run (s : State) (w : Nat) : Result := step (s.withFetchWord 32 w)

/-- One field of what a step answers. -/
def field {α : Type} (r : Result) (f : State → α) : Option α :=
  match r with
  | .next s => some (f s)
  | .fault _ => none
  | .refused _ => none

/-- The recorded model fault a step answers. -/
def raised (r : Result) : Option (Option ModelFault) := field r (fun s => s.fault)

/-- The register a state reads at an index. -/
def reg (idx : BitVec 8) (s : State) : Option Word := (regOfIndex idx).bind (readReg s)

theorem test_pv_valid : pv.valid = true := by
  simp [Params.valid, timerParamsValid, pv, Params.smallest, Rate.positive, Params.pinsWf, Params.baudArguments,
    Rate.isRational]

/-- R5: an instance with a rate that need not be rational; it pins no value of BAUD_DIV. -/
theorem test_free_rate_valid : { pv with fSmclk := .free 0, baudPinned := [] }.valid = true := by
  simp [Params.valid, timerParamsValid, pv, Params.smallest, Rate.positive, Params.pinsWf]

/-- R5: a rate is positive. -/
theorem test_zero_rate_invalid : { pv with fSmclk := .rational 0 }.valid = false := by
  simp [Params.valid, Rate.positive]

/-! ### Commands, one step each -/

/-- V3.5: a second INIT_HW. -/
theorem test_initHw_again : raised (run ready 0x01000000) = some (some ⟨.reInit, 1, some 0x01000000⟩) := by decide

/-- R134: I2 parks the unused pins and drives both rails off, in one step. -/
theorem test_initHw_pins :
    field (step (pinned { boot with phase := .init .i2 } .main)) (fun s => (s.unusedParked, s.gps.rail, s.rf.rail, s.phase))
      = some (true, some .off, some .off, .init (.i3 .d1)) := by decide

/-- V8.8. -/
theorem test_feedWdt :
    field (run { ready with wdtCnt := 999 } 0x02000000) (fun s => (s.wdtCnt, s.pc, s.history))
      = some (0, 2, [⟨.cpu, .wdtFeed⟩]) := by decide

/-- V4.11. -/
theorem test_cfgGpsEnabled_before_init :
    raised (run boot 0x03010000) = some (some ⟨.notInitialised, 0, some 0x03010000⟩) := by decide

/-- V4.1: after E2 the module reads 0xC and its serial configuration 0x01020068. -/
theorem test_cfgGpsEnabled_configures :
    field (step (pinned { ready with
        phase := .enable .gps .e2
        gps := { parkedModule with pinmux := some .serial } } .main)) (fun s => (reg 0x09 s, reg 0x0B s))
      = some (some 0xC, some 0x01020068) := by decide

/-- V4.2: D1 on an enabled module leaves 0x9. -/
theorem test_cfgGpsDisabled_rail_first :
    field (step (pinned { ready with
        phase := .disable .gps .d1
        gps := ⟨.enabled, some .on, some .serial, some .released, none⟩ } .main)) (reg 0x09)
      = some (some 0x9) := by decide

/-- V4.6: S ends the command. -/
theorem test_cfgRfDisabled_records :
    field (step (pinned { ready with
        phase := .disable .rf .s
        rf := ⟨.enabled, some .off, some .parked, some .held, none⟩ } .main)) (fun s => (reg 0x0A s, s.pc, s.phase))
      = some (some 0x4, 2, .fetch) := by decide

/-- V4.8: O2 does not clear the flag while the oscillator condition is bad. -/
theorem test_cfgRfEnabled_clear_is_forced :
    field (step (pinned { ready with phase := .rfOsc .o2, oscOk := false } .main)) (fun s => (s.oscFault, s.phase))
      = some (true, .rfOsc .o3) := by decide

/-- V4.9: O3 goes back to O2 while the flag reads 1. -/
theorem test_cfgRfEnabled_loops :
    field (step (pinned { ready with phase := .rfOsc .o3 } .main)) (fun s => (s.phase, s.pc)) = some (.rfOsc .o2, 1) := by
  decide

/-- V8.1. -/
theorem test_sleep :
    field (run ready 0x04000000) (fun s => (s.gie, s.mode, s.pc, s.history))
      = some (true, .sleep, 2, [⟨.cpu, .sleep⟩]) := by decide

/-- V8.12. -/
theorem test_sleep_before_init :
    raised (run boot 0x04000000) = some (some ⟨.notInitialised, 0, some 0x04000000⟩) := by decide

/-- V8.6. -/
theorem test_delayMs :
    field (run ready 0x0500000A) (fun s => (s.pc, s.history)) = some (2, [⟨.cpu, .delay .ms 10⟩]) := by decide

/-- V8.7. -/
theorem test_delayUs :
    field (run ready 0x06000000) (fun s => (s.pc, s.history)) = some (2, [⟨.cpu, .delay .us 0⟩]) := by decide

/-- V6.1, W1. -/
theorem test_resetSym_compare :
    field (run { ready with sym := ⟨some 0x0042, some 0x1234, true, true, true⟩ } 0x07000000) (fun s => (s.sym, s.pc))
      = some (⟨some 0x0042, some 0, true, true, true⟩, 1) := by decide

/-- V6.1, W2. -/
theorem test_resetSym_counter :
    field (step (pinned { ready with phase := .symReset, sym := ⟨some 0x0042, some 0, true, true, true⟩ } .main))
        (fun s => (s.sym, s.pc))
      = some (⟨some 0xFFFF, some 0, true, true, true⟩, 2) := by decide

/-- V7.1. -/
theorem test_flagsRead :
    field (run { ready with evflags := 0b101 } 0x08000000) (fun s => (s.acc, s.evflags)) = some (some 5, 0b101) := by decide

/-- V7.3. -/
theorem test_flagsClear :
    field (run { ready with evflags := 0b111 } 0x09030000) (fun s => (s.acc, s.evflags)) = some (none, 0b100) := by decide

/-- V7.6. -/
theorem test_flagsXchg :
    field (run { ready with evflags := 0b011 } 0x0A010000) (fun s => (s.acc, s.evflags)) = some (some 1, 0b010) := by decide

/-- V7.9. -/
theorem test_flagsXchg_clear_flag :
    field (run { ready with evflags := 0b010 } 0x0A040000) (fun s => (s.acc, s.evflags)) = some (some 0, 0b010) := by decide

/-- V8.9. -/
theorem test_irqOff : field (run { ready with gie := true } 0x0B000000) (reg 0x0E) = some (some 0x2) := by decide

/-- V8.10. -/
theorem test_irqOn :
    field (run { ready with hb := ⟨some 0x10, some 0x10, true, true, true⟩ } 0x0C000000)
        (fun s => (s.gie, enabled { s with schedule := [] } .isrHb)) = some (true, true) := by decide

/-- V9.1. -/
theorem test_regRead : field (run ready 0x20030000) (fun s => (s.acc, s.pc)) = some (some 3, 2) := by decide

/-- V9.1: SER_CFG_GPS is UNKNOWN after INIT_HW. -/
theorem test_regRead_unknown :
    raised (run ready 0x200B0000) = some (some ⟨.readUnspecified, 1, some 0x200B0000⟩) := by decide

/-- V9.3. -/
theorem test_jmp : field (run { ready with pc := 7 } 0x30000003) (fun s => s.pc) = some 3 := by decide

/-- V9.7: bits 31:8 are never tested. -/
theorem test_bz : field (run { ready with acc := some 0x100 } 0x31FF0004) (fun s => s.pc) = some 4 := by decide

/-- V9.11. -/
theorem test_bz_unwritten :
    raised (run boot 0x31010000) = some (some ⟨.unwrittenAcc, 0, some 0x31010000⟩) := by decide

/-- V9.9. -/
theorem test_bnz : field (run { ready with acc := some 4, pc := 3 } 0x32040000) (fun s => s.pc) = some 0 := by decide

/-- V9.10. -/
theorem test_bnz_zero_mask :
    field (run { ready with acc := some 0xFF, pc := 3 } 0x32000000) (fun s => s.pc) = some 4 := by decide

/-- V9.13. -/
theorem test_halt : field (run { ready with pc := 9 } 0x3F000000) (fun s => (s.mode, s.pc)) = some (.halted, 9) := by decide

/-- V9.15: decode comes before the order of use. -/
theorem test_illegal_first : raised (run boot 0x0A080000) = some (some ⟨.illegalCommand, 0, some 0x0A080000⟩) := by decide

/-- V9.4: a fetch past the end. -/
theorem test_pc_out_of_program :
    raised (step (pinned { ready with pc := 9 } .main)) = some (some ⟨.pcOutOfProgram, 9, none⟩) := by decide

/-! ### Timers, interrupts, watchdog -/

/-- V5.2. -/
theorem test_tick_match :
    field (step (pinned { ready with hb := ⟨some 0x000F, some 0x0010, true, true, false⟩ } .tickHb)) (fun s => s.hb)
      = some ⟨some 0x0010, some 0x0010, true, true, true⟩ := by decide

/-- V5.3: the counter wraps at its own width. -/
theorem test_tick_wraps :
    field (step (pinned { ready with sym := ⟨some 0xFFFF, some 0, true, true, false⟩ } .tickSym)) (fun s => s.sym)
      = some ⟨some 0, some 0, true, true, true⟩ := by decide

/-- V5.8. -/
theorem test_isrHb_wakes :
    field (step (pinned { ready with
        gie := true
        mode := .sleep
        evflags := 0b100
        hb := ⟨some 0, some 0xC000, true, true, true⟩ } .isrHb)) (fun s => (s.hb.ccr, s.evflags, s.mode))
      = some (some 0x4000, 0b101, .active) := by decide

/-- V5.11. -/
theorem test_isrSym_never_wakes :
    field (step (pinned { ready with
        gie := true
        mode := .sleep
        evflags := 0b100
        sym := ⟨some 0, some 0xFE00, true, true, true⟩ } .isrSym)) (fun s => (s.sym.ccr, s.evflags, s.mode))
      = some (some 0x008F, 0b110, .sleep) := by decide

/-- V8.5. -/
theorem test_isrExt_without_wake :
    field (step (pinned { ready with gie := true, mode := .sleep, extPend := true } (.isrExt false)))
        (fun s => (s.extPend, s.evflags, s.mode)) = some (false, 0b100, .sleep) := by decide

/-- V10.3, V10.4: the NMI comes before the maskable handlers, and nothing else of the CPU runs inside it. -/
theorem test_acceptance :
    (let s := { ready with gie := true, faultIe := true, hb := ⟨some 0x10, some 0x10, true, true, true⟩ }
     ([Choice.main, .nmiEntry, .isrHb].map (enabled s) = [true, true, false]) ∧
      ([Choice.main, .nmiEntry, .isrHb, .nmiStep].map (enabled { s with ctx := .nmi .n2 }) = [false, false, false, true])) := by
  decide

/-- V11.4: no return while the flag reads set. -/
theorem test_nmi_relapse :
    field (step (pinned { ready with ctx := .nmi .n3, faultIe := true, oscOk := false } .nmiStep)) (fun s => s.ctx)
      = some (.nmi .n1) := by decide

/-- V11.5: the watchdog resets whatever runs. -/
theorem test_wdt_reset :
    field (step (pinned { ready with wdtCnt := 999, ctx := .nmi .n3, faultIe := true, oscOk := false } (.wdtTick false)))
        (fun s => (s.wdtCnt, s.ctx, s.initDone, s.oscFault, s.hb.ccr)) = some (0, .main, false, true, none) := by decide

/-! ### The numbers of the history -/

/-- R109. -/
theorem test_module_codes :
    ([ModuleId.gps, .rf].map ModuleId.code = [0, 1]) ∧ [ModState.disabled, .enabled].map ModState.code = [0, 1] ∧
      [TimerId.hb, .sym].map TimerId.code = [0, 1] := by decide

/-- R281. -/
theorem test_fault_numbers :
    [FaultCode.illegalCommand, .notInitialised, .reInit, .pcOutOfProgram, .unwrittenAcc, .readUnspecified].map
      FaultCode.number = [1, 2, 3, 4, 5, 6] := by decide

/-- R111: the cause of each entry event. -/
theorem test_vectors :
    [Event.wdtReset, .nmiEnter, .isr .hb 0, .isr .sym 0, .extIsr true, .halt].map Event.vector
      = [some 0, some 1, some 2, some 3, some 4, none] := by decide

/-! ### The host's entry points, the assembler -/

/-- The placed word is the one the very next step runs, from reset. -/
theorem test_withFetchWord_from_reset :
    field (step (State.reset.withFetchWord 32 0x3000FFFF)) (fun s => (s.pc, s.history)) = some (65535, []) := by decide

/-- R115: WAIT_FLAG with the label of its own line. -/
theorem test_assemble_wait_flag :
    assemble ["INIT_HW", "wait: WAIT_FLAG HB, wait"] = some [0x01000000, 0x0A010000, 0x31010001] := by decide

/-- 95 P2, indices 2 to 4, and R115's expansions; that WAIT_FLAG may name another line is log entry 30. -/
theorem test_assemble :
    assemble ["wait: FEED_WDT ; loop", "WAIT_FLAG HB, wait", "NOP", "FLAGS_CLEAR HB|SYM", "B wait"]
      = some [0x02000000, 0x0A010000, 0x31010000, 0x06000000, 0x09030000, 0x30000000] := by decide

/-! ### Witnesses: states and operands that meet the hypotheses of each obligation -/

theorem witness_DecodeOfEncodedCommand : (Instr.regRead 0x0F).wellFormed = true := by decide

theorem witness_EncodeOfDecodedWord : decode 0x31FFFFFF = .ok (.bz 0xFF 65535) := by decide

theorem witness_DecoderFollowsTheOpcodeTable :
    (opcodeRows[15]? = some ⟨0xFFF0FFFF, 0x20000000⟩ ∧ (0x200F0000 : Word) &&& 0xFFF0FFFF = 0x20000000) ∧
      ∀ r ∈ opcodeRows, (0x20100000 : Word) &&& r.mask ≠ r.value := by decide

theorem witness_StoredBytesDecodeAsTheirWord : decode 0x3F000000 = .ok .halt := by decide

theorem witness_StepRunsTheDecodedCommand :
    pick (pinned ready .main) = some .main ∧ (pinned ready .main).phase = .fetch ∧
      ready.program[ready.pc]? = some 0x3F000000 ∧ decode 0x3F000000 = .ok .halt := by decide

theorem witness_PinnedEnabledChoiceIsTaken : enabled ready (.wdtTick true) = true := by decide

theorem witness_StepIsAnEnabledTransition : ∃ s', step (pinned ready .tickHb) = .next s' := ⟨_, rfl⟩

theorem witness_NoAgentStepsAfterFaultOrHalt :
    { ready with fault := some ⟨.reInit, 1, none⟩ }.fault = some ⟨.reInit, 1, none⟩ ∧
      { ready with mode := .halted }.fault = none ∧ { ready with mode := .halted }.mode = .halted := by decide

theorem witness_FetchFaultsBeforeExecution :
    (ready.phase = .fetch ∧ { ready with pc := 2 }.program.length ≤ { ready with pc := 2 }.pc) ∧
      { ready with program := [0x00000000], pc := 0 }.program[0]? = some 0x00000000 ∧
      decode 0x00000000 = .error .unknownOpcode := by decide

theorem witness_OrderOfUseFaults :
    (Instr.flagsRead.commandClass = .core ∧ Instr.flagsRead ≠ .initHw ∧ boot.initDone = false) ∧
      (Instr.bz 0xFF 0).commandClass = .seq ∧ boot.fault = none := by decide

theorem witness_ModelFaultsArePrecise :
    (pinned { ready with pc := 2 } .main).fault = none ∧
      ∃ s' f, step (pinned { ready with pc := 2 } .main) = .next s' ∧ s'.fault = some f := ⟨rfl, _, _, rfl, rfl⟩

theorem witness_FeedWdtClearsTheCount : ready.initDone = true ∧ boot.initDone = false := by decide

theorem witness_SleepEntersSleepWithInterruptsOn : ready.initDone = true ∧ boot.initDone = false := by decide

theorem witness_DelaysChangeOnlyPcAndHistory : ready.initDone = true ∧ boot.initDone = false := by decide

theorem witness_FlagsReadCopiesTheFlags : ready.initDone = true ∧ boot.initDone = false := by decide

theorem witness_FlagsClearClearsTheMask : ready.initDone = true ∧ boot.initDone = false := by decide

theorem witness_FlagsXchgReadsAndClears : ready.initDone = true ∧ boot.initDone = false := by decide

theorem witness_IrqCommandsWriteOnlyGie : ready.initDone = true ∧ boot.initDone = false := by decide

theorem witness_RegReadCopiesTheRegister :
    0x10 ≤ (0x10 : BitVec 8).toNat ∧ (0x0F : BitVec 8).toNat < 0x10 ∧
      (regOfIndex 0x0F = some .pins ∧ readReg ready .pins = some 1) ∧
      regOfIndex 0x0C = some .serCfgRf ∧ readReg ready .serCfgRf = none := by decide

theorem witness_RegReadOfAReservedIndexFaults : 0x10 ≤ (0x10 : BitVec 8).toNat := by decide

theorem witness_JumpAndHalt : ∃ t, exec .halt boot = .next t := ⟨_, rfl⟩

theorem witness_RegisterMapContents :
    (ready.hb.cnt = some 0 ∧ ready.hb.ccr = some 0x0010 ∧ ready.sym.cnt = some 0 ∧ ready.sym.ccr = some 0x0008) ∧
      (ready.rf.rail = some .off ∧ ready.rf.serRst = some .held ∧ ready.rf.pinmux = some .parked) ∧
      ({ ready.rf with serCfg := some ⟨3, ⟨0x0010, 0x00⟩⟩ }.serCfg = some ⟨3, ⟨0x0010, 0x00⟩⟩) ∧
      (boot.hb.cnt = none ∧ boot.sym.ccr = none ∧ boot.rf.rail = none) ∧ ready.rf.serCfg = none := by decide

theorem witness_BranchesTestTheMaskedAccumulator :
    boot.acc = none ∧ ({ ready with acc := some 0x180 }.acc = some 0x180) ∧
      (∃ n, n < 8 ∧ (0x180 : Word).getLsbD n = true ∧ (0x80 : BitVec 8).getLsbD n = true) ∧
      (∀ n, n < 8 → (0x180 : Word).getLsbD n = true → (0x7F : BitVec 8).getLsbD n = false) :=
  ⟨by decide, by decide, ⟨7, by decide⟩, by decide⟩

theorem witness_SequenceEntriesChangeOnlyThePhase : boot.initDone = false ∧ ready.initDone = true := by decide

theorem witness_ClocksAreConfiguredOnce :
    ready.initDone = true ∧ ∃ s', step (pinned { boot with phase := .init .i1 } .main) = .next s' := ⟨by decide, _, rfl⟩

theorem witness_ResetSymWritesCompareThenCounter :
    ready.initDone = true ∧ boot.initDone = false ∧ { ready with phase := .symReset }.phase = .symReset := by decide

/-- The conditions the multi-step statements put on a state at its command. -/
def atCommand (s : State) (w : Word) : Bool :=
  s.fault.isNone && s.mode == .active && s.ctx == .main && s.phase == .fetch && s.program[s.pc]? == some w

theorem witness_InitHwReachesItsFinalState :
    atCommand { boot with program := [0x01000000] } 0x01000000 = true ∧ boot.initDone = false := by decide

theorem witness_DisableSequenceReachesItsFinalState :
    (atCommand { ready with program := [0x01000000, 0x03000000] } 0x03000000 = true) ∧
      (atCommand { ready with program := [0x01000000, 0x03020000] } 0x03020000 = true) ∧ ready.initDone = true := by decide

theorem witness_EnableGpsReachesItsFinalState :
    atCommand { ready with program := [0x01000000, 0x03010000] } 0x03010000 = true ∧ ready.initDone = true := by decide

theorem witness_EnableRfReachesItsFinalState :
    atCommand { ready with program := [0x01000000, 0x03030000] } 0x03030000 = true ∧ ready.initDone = true ∧
      ready.oscOk = true := by decide

/-- The RF oscillator loop with a dead oscillator (V4.9). -/
def dead : State := { ready with phase := .rfOsc .o2, oscOk := false, xoscOn := true }

theorem witness_RfOscillatorLoopHasNoBound :
    dead.fault = none ∧ dead.mode = .active ∧ dead.ctx = .main ∧ dead.phase = .rfOsc .o2 ∧ dead.oscOk = false ∧
      dead.oscFault = true := by decide

theorem witness_TickCountsAndMatches :
    (ready.hb.cnt = some 0 ∧ ready.hb.ccr = some 0x0010) ∧
      { ready with sym := ⟨some 0xFFFF, some 0xFFFF, true, true, true⟩ }.sym.cnt = some 0xFFFF ∧
      { ready with sym := ⟨some 0xFFFF, some 0xFFFF, true, true, true⟩ }.sym.ccr = some 0xFFFF := by decide

theorem witness_HeartbeatHandlerRearmsFlagsAndWakes :
    ready.hb.ccr = some 0x0010 ∧
      (({ ready with evflags := 0b100, mode := .sleep }.evflags.getLsbD 2 = true) ∧
        { ready with evflags := 0b100, mode := .sleep }.mode = .sleep) ∧ ready.evflags.getLsbD 2 = false := by decide

theorem witness_SymbolHandlerRearmsAndNeverWakes : ready.sym.ccr = some 0x0008 := by decide

theorem witness_ExternalWakeSourceSteps :
    { ready with mode := .sleep }.mode = .sleep ∧ ready.mode ≠ .sleep ∧ enabled ready .extReq = true := by decide

/-- A sleeping machine with every maskable request pending, and one with the NMI pending. -/
theorem witness_InterruptAcceptance :
    (let s := { ready with
       gie := true
       mode := .sleep
       extPend := true
       hb := ⟨some 0, some 0, true, true, true⟩
       sym := ⟨some 0, some 0, true, true, true⟩ }
     [Choice.isrHb, .isrSym, .isrExt true, .isrExt false].map (enabled s) = [true, true, true, true]) ∧
      enabled { ready with faultIe := true } .nmiEntry = true := by decide

theorem witness_OtherStepsEnabled :
    [Choice.main, .wdtTick true].map (enabled ready) = [true, true] ∧
      enabled { ready with ctx := .nmi .n1 } .nmiStep = true := by decide

theorem witness_ClockFaultHandlerSteps :
    { ready with ctx := .nmi .n1 }.ctx = .nmi .n1 ∧ { ready with ctx := .nmi .n2 }.ctx = .nmi .n2 ∧
      ({ ready with ctx := .nmi .n3 }.ctx = .nmi .n3 ∧ ready.oscFault = true) ∧
      { ready with ctx := .nmi .n3, oscFault := false }.oscFault = false := by decide

theorem witness_WatchdogTickCountsOrResets :
    ready.wdtCnt + 1 ≠ ready.params.wdtTimeout ∧
      { ready with wdtCnt := 999 }.wdtCnt + 1 = { ready with wdtCnt := 999 }.params.wdtTimeout := by decide

theorem witness_OscillatorConditionFlips : ready.oscOk = true ∧ dead.oscOk = false := by decide

/-- The timers of `ready` meet their invariant. -/
theorem ready_timer (r : Word) (h : r.toNat < 2 ^ 16) : TimerInv 16 ⟨some 0, some r, true, true, false⟩ where
  known := fun _ => ⟨0, r, rfl, rfl, by decide, h⟩
  stopped := fun h => by cases h
  enable := rfl
  pending := fun h => by cases h

theorem ready_inv : Inv ready where
  params := test_pv_valid
  program := by decide
  pcRange := by decide
  pcHeld := by decide
  hb := ready_timer _ (by decide)
  sym := ready_timer _ (by decide)
  wdt := by decide
  osc := by decide
  boot := by decide
  initPhase := fun _ h => by cases h
  corePhase := fun h => by cases h
  sleeping := by decide
  nmi := by decide
  oscLoop := fun _ h => by cases h
  armed := by decide
  clocks := by decide
  pins := by decide
  rails := fun m => by cases m <;> decide
  gpsReset := by decide
  gpsPins := by decide
  rfReset := by decide
  rfPins := by decide
  hbRun := by decide
  symRun := by decide

/-- In the oscillator loop of an RF enable, the fault interrupt not yet armed. -/
theorem dead_inv : Inv dead :=
  { ready_inv with
    pcHeld := by decide
    osc := by decide
    boot := by decide
    initPhase := fun _ h => by cases h
    corePhase := fun h => by cases h
    sleeping := by decide
    oscLoop := fun _ _ _ => rfl
    armed := by decide }

theorem pinned_inv {s : State} {c : Choice} (h : Inv s) : Inv (pinned s c) := { h with }

theorem witness_EveryStepKeepsTheMachineInvariant :
    (Inv (pinned ready .tickHb) ∧ ∃ s', step (pinned ready .tickHb) = .next s') ∧
      Inv (pinned dead .main) ∧ ∃ s', step (pinned dead .main) = .next s' :=
  ⟨⟨pinned_inv ready_inv, _, rfl⟩, pinned_inv dead_inv, _, rfl⟩

theorem witness_StepStopsOnlyAtTheEndOfARun : Inv ready ∧ ready.fault = none ∧ ready.mode ≠ .halted :=
  ⟨ready_inv, by decide, by decide⟩

theorem ready_moduleInv : ModuleInv ready := by
  intro m
  cases m <;> exact fun _ => rfl

theorem witness_EveryStepKeepsModuleConvergence :
    Inv (pinned ready .main) ∧ ModuleInv (pinned ready .main) ∧ ∃ s', step (pinned ready .main) = .next s' :=
  ⟨pinned_inv ready_inv, ready_moduleInv, _, rfl⟩

/-- `ready` with the start-up records of its timers in the history. -/
def started : State := { ready with
  gie := true
  hb := ⟨some 0x0010, some 0x0010, true, true, true⟩
  history := [⟨.cpu, .timerInit .hb⟩, ⟨.cpu, .timerInit .sym⟩] }

theorem witness_EveryStepKeepsPeriodicity :
    started.params.valid = true ∧ PeriodInv (pinned started .isrHb) ∧ ∃ s', step (pinned started .isrHb) = .next s' :=
  ⟨test_pv_valid, fun t => by cases t <;> decide, _, rfl⟩

/-- The handler about to return, its check not yet made. -/
def handling : State := { ready with
  ctx := .nmi .n3
  oscFault := false
  faultIe := true
  history := [⟨.cpu, .nmiEnter⟩, ⟨.cpu, .faultClear .nmi⟩] }

theorem witness_EveryStepKeepsNmiExitsChecked :
    nmiExitsFollowClearCheck none (pinned handling .nmiStep).history = true ∧
      ∃ s', step (pinned handling .nmiStep) = .next s' := ⟨by decide, _, rfl⟩

/-- About to arm, the check just made. -/
def arming : State := { ready with
  phase := .rfOsc .o4
  oscFault := false
  history := [⟨.cpu, .faultClear .main⟩, ⟨.cpu, .faultCheck .main false⟩] }

theorem witness_EveryStepKeepsArmingChecked :
    ArmingInv (pinned arming .main) ∧ ∃ s', step (pinned arming .main) = .next s' := by
  refine ⟨⟨fun before r after h hr => ?_, fun _ => by decide⟩, _, rfl⟩
  have hm : r ∈ (pinned arming .main).history := by rw [h]; simp
  have h2 : ∀ r ∈ (pinned arming .main).history, r.event ≠ .faultIeSet := by decide
  exact absurd hr (h2 r hm)

theorem witness_EveryStepKeepsTheFaultFlagForced :
    OscInv (pinned dead .main) ∧ ∃ s', step (pinned dead .main) = .next s' := ⟨fun _ => rfl, _, rfl⟩

theorem witness_NoStepWritesProgramParametersOrThePast :
    ∃ s', step (pinned { ready with wdtCnt := 999 } (.wdtTick true)) = .next s' := ⟨_, rfl⟩

theorem witness_FlagsAreClearedOnlyByCommandsOrReset :
    ∃ s', step ({ ready with evflags := 0b100 }.withFetchWord 32 0x0A040000) = .next s' ∧
      flagIsSet 0b100 .wakeReq = true ∧ flagIsSet s'.evflags .wakeReq = false := ⟨_, rfl, by decide, by decide⟩

theorem witness_FlagsAreSetOnlyByTheirHandler :
    ∃ s', step (pinned { ready with gie := true, extPend := true } (.isrExt false)) = .next s' ∧
      flagIsSet ready.evflags .wakeReq = false ∧ flagIsSet s'.evflags .wakeReq = true := ⟨_, rfl, by decide, by decide⟩

theorem witness_SleepEndsOnlyByAWakeOrReset :
    ∃ s', step (pinned { ready with gie := true, extPend := true, mode := .sleep } (.isrExt true)) = .next s' ∧
      s'.mode ≠ .sleep := ⟨_, rfl, by decide⟩

theorem witness_OtherStepsKeepTheMainLineState :
    Choice.extReq ≠ .main ∧ (∃ s', take .extReq ready = .next s') ∧
      (∃ s', take (.isrExt true) { ready with mode := .sleep } = .next s' ∧ s'.mode = .active) ∧
      ∃ s', take (.wdtTick false) { ready with wdtCnt := 999 } = .next s' := ⟨by decide, ⟨_, rfl⟩, ⟨_, rfl, rfl⟩, _, rfl⟩

theorem witness_NmiHandlerEndsOnlyOnAClearCheckOrReset :
    ∃ s', step (pinned handling .nmiStep) = .next s' ∧ handling.ctx ≠ .main ∧ s'.ctx = .main :=
  ⟨_, rfl, by decide, by decide⟩

theorem witness_ModuleStateChangesOnlyWhereRecorded :
    ∃ s', step (pinned { ready with phase := .enable .gps .s } .main) = .next s' ∧
      (s'.moduleUnit .gps).mstate ≠ (ready.moduleUnit .gps).mstate := ⟨_, rfl, by decide⟩

theorem witness_WatchdogIsFedOrResetsInTime :
    ({ ready with wdtCnt := 999 }.wdtCnt.toNat < { ready with wdtCnt := 999 }.params.wdtTimeout.toNat) ∧
      (∃ s', RunsBy [.tickHb, .wdtTick true] { ready with wdtCnt := 999 } s') ∧ 1000 ≤ 999 + wdtTicks [.tickHb, .wdtTick true] :=
  ⟨by decide, ⟨_, by decide, _, rfl, by decide, _, rfl, rfl⟩, by decide⟩

/-! ### A weakly fair infinite run -/

/-- A program of one JMP to itself, never initialised. -/
def spin : State := { boot with program := [0x30000000] }

/-- What holds along the run: only main-line code, the watchdog and the oscillator condition have a step. -/
structure Spinning (s : State) : Prop where
  params : s.params = pv
  program : s.program = [0x30000000]
  pc : s.pc = 0
  phase : s.phase = .fetch
  fault : s.fault = none
  mode : s.mode = .active
  ctx : s.ctx = .main
  initDone : s.initDone = false
  gie : s.gie = false
  faultIe : s.faultIe = false
  hbRun : s.hb.run = false
  symRun : s.sym.run = false

theorem spin_spinning : Spinning spin := by constructor <;> rfl

/-- Main-line code and the watchdog take turns. -/
def spinChoice (n : Nat) : Choice := if n % 2 = 0 then .main else .wdtTick false

/-- The state a transition answers; the same one where it stops. -/
def after (c : Choice) (s : State) : State :=
  match take c s.consume with
  | .next t => t
  | .fault _ => s
  | .refused _ => s

def spinState : Nat → State
  | 0 => spin
  | n + 1 => after (spinChoice n) (spinState n)

theorem spinning_enabled {s : State} (h : Spinning s) (n : Nat) : enabled s (spinChoice n) = true := by
  unfold spinChoice
  split <;> simp [enabled, State.alive, h.fault, h.mode, h.ctx]

theorem decode_spin : decode 0x30000000 = .ok (.jmp 0) := by decide

theorem spinning_main {s : State} (h : Spinning s) : take .main s.consume = .next { s.consume with pc := 0 } := by
  have hw : fetchWord s.consume.program s.consume.pc = some 0x30000000 := by
    simp [fetchWord, State.consume, h.program, h.pc]
  have hp : s.consume.phase = .fetch := h.phase
  simp only [take, mainStep, hp, fetchStep, hw, decode_spin, exec, execJmp]
  rfl

theorem spinning_after {s : State} (h : Spinning s) (n : Nat) :
    take (spinChoice n) s.consume = .next (after (spinChoice n) s) ∧ Spinning (after (spinChoice n) s) := by
  unfold spinChoice
  split
  · have e := spinning_main h
    exact ⟨by simp only [after, e], by simp only [after, e]; exact { h with pc := rfl }⟩
  · refine ⟨rfl, ?_⟩
    show Spinning (wdtTick false s.consume)
    unfold wdtTick
    split
    · exact ⟨h.params, h.program, rfl, rfl, h.fault, rfl, rfl, rfl, rfl, rfl, rfl, rfl⟩
    · exact { h with }

theorem spinning_all (n : Nat) : Spinning (spinState n) := by
  induction n with
  | zero => exact spin_spinning
  | succ n ih => exact (spinning_after ih n).2

/-- A spinning machine offers no fair step but main-line code's and the watchdog's. -/
theorem spinning_fair {s : State} (h : Spinning s) {c : Choice} (hf : c.fair = true) (he : enabled s c = true) :
    c = .main ∨ ∃ d, c = .wdtTick d := by
  cases c with
  | main => exact .inl rfl
  | wdtTick d => exact .inr ⟨d, rfl⟩
  | oscChange => cases hf
  | extReq => cases hf
  | nmiEntry => simp [enabled, nmiAccepted_iff, h.faultIe] at he
  | nmiStep => simp [enabled, inNmi, h.ctx] at he
  | isrHb => simp [enabled, maskableAccepted_iff, h.gie] at he
  | isrSym => simp [enabled, maskableAccepted_iff, h.gie] at he
  | isrExt r => simp [enabled, maskableAccepted_iff, h.gie] at he
  | tickHb => simp [enabled, h.hbRun] at he
  | tickSym => simp [enabled, h.symRun] at he

theorem witness_FairRunsFeedOrReset :
    InfiniteRun spinState spinChoice ∧ WeaklyFair spinState spinChoice ∧
      (spinState 0).wdtCnt.toNat < (spinState 0).params.wdtTimeout.toNat := by
  refine ⟨fun n => ⟨spinning_enabled (spinning_all n) n, (spinning_after (spinning_all n) n).1⟩, ?_, by decide⟩
  intro c hf n he
  obtain rfl | ⟨d, rfl⟩ := spinning_fair (spinning_all n) hf (he n le_rfl)
  · exact ⟨2 * n, by omega, by simp [spinChoice, Choice.sameStep]⟩
  · exact ⟨2 * n + 1, by omega, by simp [spinChoice, Choice.sameStep, Nat.add_mod]⟩

end Sys2Proof.Tests
end

/-!
SUPPORT. What keeps the machine's invariant: one rule per operation of the state, then every case of a step assembled from them.
-/

namespace Sys2Proof.Machine

/-! ### Enabled steps -/

theorem enabled_main_iff {s : State} :
    enabled s .main = true ↔ s.alive = true ∧ s.ctx = .main ∧ s.mode = .active := by
  simp [enabled, and_assoc]

theorem extRequestEnabled_iff {s : State} :
    extRequestEnabled s = true ↔ s.alive = true ∧ s.initDone = true ∧ s.extPend = false := by
  simp [extRequestEnabled, and_assoc]

/-! ### Timers -/

/-- A timer whose compare register is known runs (R48). -/
theorem TimerInv.run_of_ccr {w : Nat} {x : Timer} {r : Word} (h : TimerInv w x) (hr : x.ccr = some r) :
    x.run = true := by
  by_contra hs
  obtain ⟨-, hn⟩ := h.stopped (Bool.eq_false_iff.2 hs)
  simp [hn] at hr

/-- A running timer may be given any compare value below `2^W` (R200, R202, R205). -/
theorem TimerInv.withCcr {w : Nat} {x : Timer} {r : Word} (h : TimerInv w x) (hx : x.run = true)
    (hr : r.toNat < 2 ^ w) (p : Bool) : TimerInv w { x with ccr := some r, pend := p } where
  known := fun _ => by
    obtain ⟨c, -, hc, -, hlt, -⟩ := h.known hx
    exact ⟨c, r, hc, rfl, hlt, hr⟩
  stopped := fun hs => nomatch hx.symm.trans hs
  enable := h.enable
  pending := fun _ => hx

/-- A running timer may be given any count below `2^W` (R190, R205). -/
theorem TimerInv.withCnt {w : Nat} {x : Timer} {c : Word} (h : TimerInv w x) (hx : x.run = true)
    (hc : c.toNat < 2 ^ w) (p : Bool) : TimerInv w { x with cnt := some c, pend := p } where
  known := fun _ => by
    obtain ⟨-, r, -, hr, -, hlt⟩ := h.known hx
    exact ⟨c, r, rfl, hr, hc, hlt⟩
  stopped := fun hs => nomatch hx.symm.trans hs
  enable := h.enable
  pending := fun _ => hx

/-- The state a timer's start-up writes (R192). -/
theorem TimerInv.started {w : Nat} {r : Word} (hr : r.toNat < 2 ^ w) : TimerInv w ⟨some 0, some r, true, true, false⟩ where
  known := fun _ => ⟨0, r, rfl, rfl, by simp, hr⟩
  stopped := nofun
  enable := rfl
  pending := nofun

theorem TimerInv.atReset (w : Nat) : TimerInv w Timer.atReset where
  known := nofun
  stopped := fun _ => ⟨rfl, rfl⟩
  enable := rfl
  pending := nofun

/-! ### Outputs -/

/-- The clauses of `Inv` on what INIT_HW drives, with `n` of its micro-steps done (R131 to R139). -/
structure Driven (s : State) (n : Nat) : Prop where
  clocks : s.clkConfigured = decide (1 < n) ∧ s.clkCfg = if 1 < n then some s.params.clkCfg else none
  pins : s.unusedParked = decide (2 < n)
  rails : ∀ m, (s.moduleUnit m).rail.isSome = decide (2 < n)
  gpsReset : s.gps.serRst.isSome = decide (4 < n)
  gpsPins : s.gps.pinmux.isSome = decide (5 < n)
  rfReset : s.rf.serRst.isSome = decide (8 < n)
  rfPins : s.rf.pinmux.isSome = decide (9 < n)
  hbRun : s.hb.run = decide (11 < n)
  symRun : s.sym.run = decide (12 < n)

theorem Inv.driven {s : State} (h : Inv s) : Driven s (initProgress s) := { h with }

theorem initProgress_of_done {s : State} (hd : s.initDone = true) : initProgress s = 14 := by
  simp [initProgress, hd]

theorem initProgress_of_init {s : State} {k : InitStep} (hd : s.initDone = false) (hp : s.phase = .init k) :
    initProgress s = k.rank := by
  simp [initProgress, hd, hp]

/-- Every micro-step of INIT_HW moves its progress by one. -/
theorem initProgress_initMicro {s : State} (k : InitStep) (hd : s.initDone = false) :
    initProgress (initMicro k s) = k.rank + 1 := by
  cases k with
  | i3 k => cases k <;> simp [initProgress, initMicro, disableEffect, hd, InitStep.rank]
  | i4 k => cases k <;> simp [initProgress, initMicro, disableEffect, hd, InitStep.rank]
  | _ => simp [initProgress, initMicro, configureClocks, configurePins, startTimer, hd, InitStep.rank]

theorem State.rails_isSome {s : State} {b : Bool} (hg : s.gps.rail.isSome = b) (hr : s.rf.rail.isSome = b) :
    ∀ m, (s.moduleUnit m).rail.isSome = b
  | .gps => hg
  | .rf => hr

/-- I2 as one update, its three records appended together (R134). -/
theorem initMicro_i2 (s : State) :
    initMicro .i2 s = { s with
      phase := .init (.i3 .d1)
      unusedParked := true
      gps := { s.gps with rail := some .off }
      rf := { s.rf with rail := some .off }
      history := s.history ++ [⟨.cpu, .pinsParked⟩, ⟨.cpu, .rail .gps .off⟩, ⟨.cpu, .rail .rf .off⟩] } := by
  simp [initMicro, configurePins, State.emit]

/-- Every micro-step of INIT_HW drives the outputs `Inv` names for it (R131 to R139). -/
theorem Driven.initMicro {s : State} {k : InitStep} (d : Driven s k.rank) : Driven (initMicro k s) (k.rank + 1) := by
  have gps := d.rails .gps
  have rf := d.rails .rf
  cases k with
  | i0 => exact { d with }
  | i1 => exact { d with clocks := ⟨rfl, rfl⟩ }
  | i2 =>
    rw [initMicro_i2]
    exact { d with pins := rfl, rails := State.rails_isSome rfl rfl }
  | i3 k =>
    cases k with
    | d1 => exact { d with rails := State.rails_isSome rfl rf }
    | d2 => exact { d with rails := State.rails_isSome gps rf, gpsReset := rfl }
    | d3 => exact { d with rails := State.rails_isSome gps rf, gpsPins := rfl }
    | s => exact { d with rails := State.rails_isSome gps rf }
  | i4 k =>
    cases k with
    | d1 => exact { d with rails := State.rails_isSome gps rfl }
    | d2 => exact { d with rails := State.rails_isSome gps rf, rfReset := rfl }
    | d3 => exact { d with rails := State.rails_isSome gps rf, rfPins := rfl }
    | s => exact { d with rails := State.rails_isSome gps rf }
  | i5 => exact { d with hbRun := rfl }
  | i6 => exact { d with symRun := rfl }
  | i7 => exact { d with }

/-- No output of the module is UNKNOWN (R44 to R46). -/
structure ModuleUnit.OutputsKnown (x : ModuleUnit) : Prop where
  rail : x.rail.isSome = true
  serRst : x.serRst.isSome = true
  pinmux : x.pinmux.isSome = true

namespace ModuleUnit.OutputsKnown

variable {x : ModuleUnit} (u : x.OutputsKnown)
include u

theorem withState (v : ModState) : { x with mstate := v }.OutputsKnown := { u with }
theorem withRail (v : Rail) : { x with rail := some v }.OutputsKnown := { u with rail := rfl }
theorem withReset (v : SerReset) : { x with serRst := some v }.OutputsKnown := { u with serRst := rfl }
theorem withSerial (v : SerReset) (c : SerCfg) : { x with serRst := some v, serCfg := some c }.OutputsKnown :=
  { u with serRst := rfl }
theorem withPins (v : PinMux) : { x with pinmux := some v }.OutputsKnown := { u with pinmux := rfl }

end ModuleUnit.OutputsKnown

/-- After INIT_HW both modules' outputs are known. -/
theorem Driven.outputsKnown {s : State} (d : Driven s 14) (m : ModuleId) : (s.moduleUnit m).OutputsKnown := by
  cases m with
  | gps => exact ⟨d.rails .gps, d.gpsReset, d.gpsPins⟩
  | rf => exact ⟨d.rails .rf, d.rfReset, d.rfPins⟩

theorem Driven.withModule {s : State} {x : ModuleUnit} (d : Driven s 14) (m : ModuleId) (hx : x.OutputsKnown) :
    Driven (s.withModule m x) 14 := by
  cases m with
  | gps =>
    exact { d with
      rails := State.rails_isSome hx.rail (d.rails .rf)
      gpsReset := hx.serRst
      gpsPins := hx.pinmux }
  | rf =>
    exact { d with
      rails := State.rails_isSome (d.rails .gps) hx.rail
      rfReset := hx.serRst
      rfPins := hx.pinmux }

/-! ### The sequencer -/

/-- The clauses of `Inv` that speak of `pc` and of the phase. -/
structure PhaseInv (s : State) : Prop where
  pcRange : s.pc ≤ maxProgram
  pcHeld : s.phase ≠ .fetch → s.pc < s.program.length
  initPhase : ∀ k, s.phase = .init k → s.initDone = false
  corePhase : s.initDone = false → s.phase = .fetch ∨ ∃ k, s.phase = .init k
  sleeping : s.mode = .sleep → s.gie = true ∧ s.phase = .fetch
  oscLoop : ∀ k, s.phase = .rfOsc k → k ≠ .o1 → s.xoscOn = true

theorem Inv.width_hb_le {s : State} (h : Inv s) : s.params.wHb ≤ 32 := by
  obtain ⟨hw, -⟩ := Params.valid_bounds h.params
  exact hw

theorem Inv.width_sym_le {s : State} (h : Inv s) : s.params.wSym ≤ 32 := by
  obtain ⟨-, hw, -⟩ := Params.valid_bounds h.params
  exact hw

theorem Inv.timeout_pos {s : State} (h : Inv s) : 0 < s.params.wdtTimeout.toNat := by
  obtain ⟨-, -, -, -, ht⟩ := Params.valid_bounds h.params
  exact ht

theorem Inv.program_le {s : State} (h : Inv s) : s.program.length ≤ maxProgram := (programWf_iff.1 h.program).2

/-- At a command boundary `pc` may be written with any index up to the end of the program space (R32, R265). -/
theorem Inv.withPc {s : State} (h : Inv s) (hp : s.phase = .fetch) {k : Nat} (hk : k ≤ maxProgram) :
    Inv { s with pc := k } :=
  { h with pcRange := hk, pcHeld := fun hn => absurd hp hn }

theorem Inv.advance {s : State} (h : Inv s) (hp : s.phase = .fetch) (hpc : s.pc < s.program.length) : Inv s.advance :=
  h.withPc hp (hpc.trans_le h.program_le)

/-- The CPU may leave Sleep, or end the run, at any moment (R266, R286). -/
theorem Inv.withMode {s : State} (h : Inv s) {m : Mode} (hm : m ≠ .sleep) : Inv { s with mode := m } :=
  { h with
    boot := fun hd => by
      obtain ⟨hg, hf, he, -, hx⟩ := h.boot hd
      exact ⟨hg, hf, he, hm, hx⟩
    sleeping := fun hs => absurd hs hm }

/-- INIT_HW may move to any of its micro-steps while it is not complete (R131). -/
theorem Inv.phaseInit {s : State} (h : Inv s) (hd : s.initDone = false) (hpc : s.pc < s.program.length) (k : InitStep) :
    PhaseInv { s with phase := .init k } where
  pcRange := h.pcRange
  pcHeld := fun _ => hpc
  initPhase := fun _ _ => hd
  corePhase := fun _ => .inr ⟨k, rfl⟩
  sleeping := fun hs => by
    obtain ⟨-, -, -, hm, -⟩ := h.boot hd
    exact absurd hs hm
  oscLoop := nofun

/-- A state of main-line code inside a command of an initialised machine: the invariant, and what each command checked. -/
structure InCommand (s : State) : Prop where
  inv : Inv s
  done : s.initDone = true
  active : s.mode = .active
  inside : s.pc < s.program.length

namespace InCommand

variable {s : State} (c : InCommand s)
include c

theorem driven : Driven s 14 := initProgress_of_done c.done ▸ c.inv.driven

theorem emit (a : Agent) (e : Event) : InCommand (s.emit a e) :=
  { c with inv := { c.inv with } }

/-- A module may be given any outputs that are known. -/
theorem withModule (m : ModuleId) {x : ModuleUnit} (hx : x.OutputsKnown) : InCommand (s.withModule m x) := by
  have d : Driven (s.withModule m x) (initProgress s) := initProgress_of_done c.done ▸ c.driven.withModule m hx
  cases m <;> exact { c with inv := { d, c.inv with } }

/-- Main-line code may move to any phase outside INIT_HW, and past O1 once the oscillator is started (R37, R170). -/
theorem withPhase (p : Phase) (hp : ∀ k, p ≠ .init k := by simp)
    (ho : ∀ k, p = .rfOsc k → k ≠ .o1 → s.xoscOn = true := by simp) : Inv { s with phase := p } := by
  have d' : Driven { s with phase := p } (initProgress { s with phase := p }) :=
    initProgress_of_done (s := { s with phase := p }) c.done ▸ { c.driven with }
  exact { d', c.inv with
    pcHeld := fun _ => c.inside
    initPhase := fun k hk => absurd hk (hp k)
    corePhase := fun hd => nomatch c.done.symm.trans hd
    sleeping := fun hs => nomatch c.active.symm.trans hs
    oscLoop := ho }

theorem finish : Inv s.finish :=
  (c.withPhase .fetch).advance rfl c.inside

/-- The disable sequence drives known outputs (R161). -/
theorem disableEffect (m : ModuleId) (k : DisableStep) : InCommand (disableEffect m k s) := by
  have u := c.driven.outputsKnown m
  cases k with
  | d1 => exact (c.withModule m (u.withRail .off)).emit _ _
  | d2 => exact (c.withModule m (u.withReset .held)).emit _ _
  | d3 => exact (c.withModule m (u.withPins .parked)).emit _ _
  | s => exact (c.withModule m (u.withState .disabled)).emit _ _

/-- The enable sequence drives known outputs (R165). -/
theorem enableEffect (m : ModuleId) (k : EnableStep) : InCommand (enableEffect m k s) := by
  have u := c.driven.outputsKnown m
  cases k with
  | e1 => exact (c.withModule m (u.withPins .serial)).emit _ _
  | e2 => exact ((c.withModule m (u.withSerial .held (s.params.serialCfg m))).emit _ _).emit _ _
  | e3 => exact (c.withModule m (u.withReset .released)).emit _ _
  | e4 => exact (c.withModule m (u.withRail .on)).emit _ _
  | s => exact (c.withModule m (u.withState .enabled)).emit _ _

theorem disableMicro (m : ModuleId) (k : DisableStep) : Inv (disableMicro m k s) := by
  have e := c.disableEffect m k
  cases k with
  | s => exact e.finish
  | _ => exact e.withPhase _

theorem enableMicro (m : ModuleId) (k : EnableStep) : Inv (enableMicro m k s) := by
  have e := c.enableEffect m k
  cases k with
  | e4 => exact e.withPhase (afterE4 m) (by cases m <;> simp [afterE4]) (by cases m <;> simp [afterE4])
  | s => exact e.finish
  | _ => exact e.withPhase _

/-- The oscillator loop arms the fault interrupt only with the oscillator started (R170 to R173). -/
theorem oscMicro {k : OscStep} (hp : s.phase = .rfOsc k) : Inv (oscMicro k s) := by
  have started (hk : k ≠ .o1) : s.xoscOn = true := c.inv.oscLoop k hp hk
  cases k with
  | o1 =>
    have on : InCommand { s with xoscOn := true } :=
      { c with inv := { c.inv with oscLoop := fun _ _ _ => rfl, armed := fun _ => rfl } }
    exact (on.emit _ _).withPhase _ (ho := fun _ _ _ => rfl)
  | o2 =>
    have cleared : InCommand s.clearOscFault :=
      { c with inv := { c.inv with
          osc := fun ho => by simp [State.clearOscFault, show s.oscOk = false from ho, c.inv.osc ho] } }
    exact (cleared.emit _ _).withPhase _ (ho := fun _ _ _ => started nofun)
  | o3 => exact (c.emit _ _).withPhase _ (fun _ => by split <;> simp) (fun _ _ _ => started nofun)
  | o4 =>
    have armed : InCommand { s with faultIe := true } :=
      { c with inv := { c.inv with
          boot := fun hd => nomatch c.done.symm.trans hd
          nmi := fun _ => rfl
          armed := fun _ => started nofun } }
    exact (armed.emit _ _).withPhase _

/-- The symbol timer runs once INIT_HW is complete (R138). -/
theorem symRunning : s.sym.run = true := c.driven.symRun

theorem symResetW1 : Inv (symResetW1 s) := by
  have zeroed : InCommand (s.withTimer .sym { s.sym with ccr := some 0 }) :=
    { c with inv := { c.inv with sym := c.inv.sym.withCcr c.symRunning (by simp) s.sym.pend } }
  exact (zeroed.emit _ _).withPhase _

theorem symResetW2 : Inv (symResetW2 s) := by
  have hmax : (maxW s.params.wSym).toNat < 2 ^ s.params.wSym := by
    rw [maxW_toNat c.inv.width_sym_le]
    exact Nat.sub_lt (by positivity) one_pos
  have forced : InCommand (s.withTimer .sym { s.sym with cnt := some (maxW (s.params.width .sym)) }) :=
    { c with inv := { c.inv with sym := c.inv.sym.withCnt c.symRunning hmax s.sym.pend } }
  exact (forced.emit _ _).finish

end InCommand

/-- The entry step of INIT_HW finds nothing driven yet (R130). -/
theorem Inv.enterInit {s : State} (h : Inv s) (hp : s.phase = .fetch) (hd : s.initDone = false)
    (hpc : s.pc < s.program.length) : Inv { s with phase := .init .i0 } := by
  have before : initProgress s = 0 := by simp [initProgress, hd, hp]
  have after : initProgress { s with phase := .init .i0 } = 0 := by simp [initProgress, hd, InitStep.rank]
  have d : Driven s (initProgress { s with phase := .init .i0 }) := after ▸ before ▸ h.driven
  exact { h.phaseInit hd hpc .i0, d, h with }

/-- Every micro-step of INIT_HW keeps the invariant (R130 to R139). -/
theorem Inv.initMicro {s : State} (h : Inv s) {k : InitStep} (hp : s.phase = .init k) : Inv (initMicro k s) := by
  have hd := h.initPhase k hp
  have hpc := h.pcHeld (by simp [hp])
  have next := h.phaseInit hd hpc
  have d : Driven (Machine.initMicro k s) (initProgress (Machine.initMicro k s)) := by
    rw [initProgress_initMicro k hd]
    exact (initProgress_of_init hd hp ▸ h.driven).initMicro
  obtain ⟨-, -, hbFirst, symFirst, -⟩ := Params.valid_bounds h.params
  cases k with
  | i0 => exact { next .i1, d, h with }
  | i1 => exact { next .i2, d, h with }
  | i2 =>
    rw [initMicro_i2] at d ⊢
    exact { next (.i3 .d1), d, h with }
  | i3 k => cases k <;> exact { next _, d, h with }
  | i4 k => cases k <;> exact { next _, d, h with }
  | i5 => exact { next .i6, d, h with hb := .started hbFirst }
  | i6 => exact { next .i7, d, h with sym := .started symFirst }
  | i7 =>
    obtain ⟨-, -, -, hm, -⟩ := h.boot hd
    exact { d, h with
      pcRange := hpc.trans_le h.program_le
      pcHeld := nofun
      boot := nofun
      initPhase := nofun
      corePhase := nofun
      sleeping := fun hs => absurd hs hm
      oscLoop := nofun }

/-! ### Main-line code -/

/-- Outside INIT_HW a phase inside a command means an initialised machine (R267). -/
theorem Inv.done_of_phase {s : State} (h : Inv s) (hf : s.phase ≠ .fetch) (hi : ∀ k, s.phase ≠ .init k) :
    s.initDone = true := by
  by_contra hd
  obtain hp | ⟨k, hp⟩ := h.corePhase (Bool.eq_false_iff.2 hd)
  · exact hf hp
  · exact hi k hp

theorem Inv.inCommand {s : State} (h : Inv s) (hm : s.mode = .active) (hf : s.phase ≠ .fetch)
    (hi : ∀ k, s.phase ≠ .init k) : InCommand s :=
  ⟨h, h.done_of_phase hf hi, hm, h.pcHeld hf⟩

/-- Every step of main-line code keeps the invariant. -/
theorem MainCase.inv {s s' : State} (hc : MainCase s s') (h : Inv s) (hm : s.mode = .active) : Inv s' := by
  cases hc with
  | raised code w hp => exact { h with }
  | initEntry hp hpc hd => exact h.enterInit hp hd hpc
  | moduleEntry m target hp hpc hd =>
    have c : InCommand s := ⟨h, hd, hm, hpc⟩
    cases target <;> exact c.withPhase _
  | feed hp hpc hd =>
    have fed : Inv { s with wdtCnt := 0 } := { h with wdt := h.timeout_pos }
    exact Inv.advance { fed with } hp hpc
  | sleep hp hpc hd =>
    have asleep : Inv { s with gie := true, mode := .sleep } :=
      { h with
        boot := fun hb => nomatch hd.symm.trans hb
        sleeping := fun _ => ⟨rfl, hp⟩ }
    exact { asleep.advance hp hpc with }
  | delay u n hp hpc hd => exact Inv.advance { h with } hp hpc
  | symEntry hp hpc hd => exact InCommand.symResetW1 ⟨h, hd, hm, hpc⟩
  | flagsRead hp hpc hd => exact Inv.advance { h with } hp hpc
  | flagsClear mask hp hpc hd => exact Inv.advance { h with } hp hpc
  | flagsXchg mask hp hpc hd => exact Inv.advance { h with } hp hpc
  | irq b hp hpc hd =>
    have masked : Inv { s with gie := b } :=
      { h with
        boot := fun hb => nomatch hd.symm.trans hb
        sleeping := fun hs => nomatch hm.symm.trans hs }
    exact masked.advance hp hpc
  | regRead v hp hpc => exact { h.advance hp hpc with }
  | goTo k hp hpc hk =>
    have hle := h.program_le
    exact h.withPc hp (by unfold maxProgram at *; omega)
  | halt hp hpc =>
    have halted : Inv { s with mode := .halted } := h.withMode nofun
    exact { halted with }
  | initStep k hp => exact h.initMicro hp
  | disableStep m k hp => exact (h.inCommand hm (by simp [hp]) (by simp [hp])).disableMicro m k
  | enableStep m k hp => exact (h.inCommand hm (by simp [hp]) (by simp [hp])).enableMicro m k
  | oscStep k hp => exact (h.inCommand hm (by simp [hp]) (by simp [hp])).oscMicro hp
  | symStep hp => exact (h.inCommand hm (by simp [hp]) (by simp [hp])).symResetW2

/-! ### Handlers, timers, watchdog and environment -/

/-- The CPU changes context only with the fault interrupt armed (R289 to R291). -/
theorem Inv.withCtx {s : State} (h : Inv s) (ha : s.faultIe = true) (x : Ctx) : Inv { s with ctx := x } :=
  { h with
    boot := fun hd => by
      obtain ⟨-, hf, -⟩ := h.boot hd
      nomatch ha.symm.trans hf
    nmi := fun _ => ha }

/-- The heartbeat handler re-arms a running timer below `2^W` (R200). -/
theorem Inv.rearmHb {s : State} (h : Inv s) {c : Word} (hc : s.hb.ccr = some c) :
    Inv { s with hb := { s.hb with pend := false, ccr := some (addW s.params.wHb c s.params.hbInc) } } :=
  { h with hb := h.hb.withCcr (h.hb.run_of_ccr hc) (addW_lt _ _ h.width_hb_le) false }

/-- The symbol handler re-arms a running timer below `2^W` (R202). -/
theorem Inv.rearmSym {s : State} (h : Inv s) {c : Word} (hc : s.sym.ccr = some c) :
    Inv { s with sym := { s.sym with pend := false, ccr := some (addW s.params.wSym c s.params.symInc) } } :=
  { h with sym := h.sym.withCcr (h.sym.run_of_ccr hc) (addW_lt _ _ h.width_sym_le) false }

/-- The external handler takes the request (R288). -/
theorem Inv.acceptExt {s : State} (h : Inv s) : Inv { s with extPend := false } :=
  { h with
    boot := fun hd => by
      obtain ⟨hg, hf, -, hs, hx⟩ := h.boot hd
      exact ⟨hg, hf, rfl, hs, hx⟩ }

/-- A tick below the timeout stays below it (R296). -/
theorem toNat_succ_lt_of_ne {a b : Word} (h : a.toNat < b.toNat) (hn : a + 1 ≠ b) :
    (a + 1).toNat = a.toNat + 1 ∧ a.toNat + 1 < b.toNat := by
  bv_omega

/-- A watchdog reset gives a state that meets the invariant (R297, R330). -/
theorem Inv.watchdogReset {s : State} (h : Inv s) (d : Bool) : Inv (s.watchdogReset d) where
  params := h.params
  program := h.program
  pcRange := Nat.zero_le _
  pcHeld := fun hn => absurd rfl hn
  hb := .atReset _
  sym := .atReset _
  wdt := h.timeout_pos
  osc := fun ho => by simp [show s.oscOk = false from ho]
  boot := fun _ => ⟨rfl, rfl, rfl, nofun, rfl⟩
  initPhase := nofun
  corePhase := fun _ => .inl rfl
  sleeping := nofun
  nmi := nofun
  oscLoop := nofun
  armed := nofun
  clocks := ⟨rfl, rfl⟩
  pins := rfl
  rails := State.rails_isSome rfl rfl
  gpsReset := rfl
  gpsPins := rfl
  rfReset := rfl
  rfPins := rfl
  hbRun := rfl
  symRun := rfl

/-- Every enabled transition but main-line code's keeps the invariant. -/
theorem OtherCase.inv {s s' : State} {c : Choice} (hc : OtherCase s c s') (h : Inv s) (he : enabled s c = true) :
    Inv s' := by
  have inHandler {k : NmiStep} (hx : s.ctx = .nmi k) : s.faultIe = true := h.nmi (by simp [inNmi, hx])
  cases hc with
  | nmiEntry =>
    obtain ⟨-, -, -, ha⟩ := nmiAccepted_iff.1 he
    exact { h.withCtx ha (.nmi .n1) with }
  | nmiIdle hx => exact h
  | nmiClear hx =>
    exact { h.withCtx (inHandler hx) (.nmi .n2) with
      osc := fun ho => by simp [show s.oscOk = false from ho, h.osc ho] }
  | nmiWait hx => exact h.withCtx (inHandler hx) (.nmi .n3)
  | nmiRetry hx hf => exact { h.withCtx (inHandler hx) (.nmi .n1) with }
  | nmiExit hx hf => exact { h.withCtx (inHandler hx) .main with }
  | isrHb c hr => exact { h.rearmHb hr with }
  | isrHbWake c hr hw hs => exact { (h.rearmHb hr).withMode (m := .active) nofun with }
  | isrSym c hr => exact { h.rearmSym hr with }
  | isrExt r => exact { h.acceptExt with }
  | isrExtWake hs => exact { h.acceptExt.withMode (m := .active) nofun with }
  | tickHb c r hn hr =>
    exact { h with hb := h.hb.withCnt (h.hb.run_of_ccr hr) (addW_lt _ _ h.width_hb_le) _ }
  | tickSym c r hn hr =>
    exact { h with sym := h.sym.withCnt (h.sym.run_of_ccr hr) (addW_lt _ _ h.width_sym_le) _ }
  | wdtCount f hw =>
    obtain ⟨hs, hlt⟩ := toNat_succ_lt_of_ne h.wdt hw
    exact { h with wdt := hs ▸ hlt }
  | wdtReset f hw => exact h.watchdogReset f
  | oscBad ho => exact { h with osc := fun _ => rfl }
  | oscGood ho => exact { h with osc := nofun }
  | extReq =>
    obtain ⟨-, hd, -⟩ := extRequestEnabled_iff.1 he
    exact { h with boot := fun hn => nomatch hd.symm.trans hn }

/-- Settles O44, by the cases of a step: main-line code's, then every other agent's. -/
theorem everyStepKeepsTheMachineInvariant : Obligations.EveryStepKeepsTheMachineInvariant := by
  intro s s' h hstep
  obtain ⟨c, -, he, ⟨rfl, hc⟩ | hc⟩ := step_cases hstep
  · obtain ⟨-, -, hm⟩ := enabled_main_iff.1 he
    exact hc.inv { h with } hm
  · exact hc.inv { h with } (by simpa using he)

end Sys2Proof.Machine

/-!
SUPPORT. What every transition leaves of the launch arguments, the past and the watchdog count, and the watchdog along finite and fair
runs.
-/

namespace Sys2Proof.Machine

/-! ### The scheduler -/

/-- Settles O7: the pinned choice is picked, and the bookkeeping drops it from the schedule. -/
theorem pinnedEnabledChoiceIsTaken : Obligations.PinnedEnabledChoiceIsTaken := by
  intro s c he
  have hs : enabled { s with schedule := c :: s.schedule } c = true := by cases c <;> exact he
  simp only [step, stepOnce, pick_pinned rfl hs]
  rfl

/-- Settles O8: the choice picked is enabled and its transition is the step's. -/
theorem stepIsAnEnabledTransition : Obligations.StepIsAnEnabledTransition := by
  intro s s' hstep
  obtain ⟨c, hpick, htake⟩ := step_next hstep
  exact ⟨c, pick_enabled hpick, htake⟩

/-! ### The launch arguments and the past -/

/-- `s'` has the launch arguments and the past of `s`. -/
structure Extends (s s' : State) : Prop where
  program : s'.program = s.program
  params : s'.params = s.params
  history : s.history <+: s'.history

theorem Extends.refl (s : State) : Extends s s := ⟨rfl, rfl, List.prefix_rfl⟩

theorem Extends.trans {s t u : State} (h : Extends s t) (k : Extends t u) : Extends s u :=
  ⟨k.program.trans h.program, k.params.trans h.params, h.history.trans k.history⟩

/-- `s'` extends `s` and the watchdog count is kept (R51). -/
structure Quiet (s s' : State) : Prop extends Extends s s' where
  wdtCnt : s'.wdtCnt = s.wdtCnt

namespace Quiet

theorem refl (s : State) : Quiet s s := ⟨.refl s, rfl⟩

variable {s s' : State} (q : Quiet s s')
include q

theorem emit (a : Agent) (e : Event) : Quiet s (s'.emit a e) :=
  { q with history := q.history.trans (List.prefix_append _ _) }

theorem withModule (m : ModuleId) (x : ModuleUnit) : Quiet s (s'.withModule m x) := by
  cases m <;> exact { q with }

theorem withTimer (t : TimerId) (x : Timer) : Quiet s (s'.withTimer t x) := by
  cases t <;> exact { q with }

end Quiet

/-! ### The micro-steps -/

theorem quiet_disableEffect (m : ModuleId) (k : DisableStep) (s : State) : Quiet s (disableEffect m k s) := by
  cases k <;> exact ((Quiet.refl s).withModule m _).emit _ _

theorem quiet_enableEffect (m : ModuleId) (k : EnableStep) (s : State) : Quiet s (enableEffect m k s) := by
  cases k with
  | e2 => exact (((Quiet.refl s).withModule m _).emit _ _).emit _ _
  | _ => exact ((Quiet.refl s).withModule m _).emit _ _

theorem quiet_disableMicro (m : ModuleId) (k : DisableStep) (s : State) : Quiet s (disableMicro m k s) := by
  have q := quiet_disableEffect m k s
  cases k <;> exact { q with }

theorem quiet_enableMicro (m : ModuleId) (k : EnableStep) (s : State) : Quiet s (enableMicro m k s) := by
  have q := quiet_enableEffect m k s
  cases k <;> exact { q with }

theorem quiet_oscMicro (k : OscStep) (s : State) : Quiet s (oscMicro k s) := by
  have q (e : Event) := (Quiet.refl s).emit .cpu e
  cases k with
  | o1 => exact { q .xoscStart with }
  | o2 => exact { q (.faultClear .main) with }
  | o3 => exact { q (.faultCheck .main s.oscFault) with }
  | o4 => exact { q .faultIeSet with }

theorem quiet_startTimer (t : TimerId) (s : State) : Quiet s (startTimer t s) :=
  ((Quiet.refl s).withTimer t _).emit _ _

theorem quiet_initMicro (k : InitStep) (s : State) : Quiet s (initMicro k s) := by
  have q := Quiet.refl s
  cases k with
  | i0 => exact { q.emit .cpu (.flagsClear 0b111) with }
  | i1 => exact { q.emit .cpu .clocksSet with }
  | i2 =>
    rw [initMicro_i2]
    exact { q with history := List.prefix_append _ _ }
  | i3 k => cases k <;> exact { quiet_disableEffect .gps _ s with }
  | i4 k => cases k <;> exact { quiet_disableEffect .rf _ s with }
  | i5 => exact { quiet_startTimer .hb s with }
  | i6 => exact { quiet_startTimer .sym s with }
  | i7 => exact { q with }

/-! ### Every transition -/

/-- What a transition does to the watchdog: only a feed, a tick and a reset touch its count (R234, R296, R297). -/
inductive WatchdogCase (s : State) : Choice → State → Prop where
  | quiet {c : Choice} {s' : State} (hc : c.sameStep (.wdtTick false) = false) (q : Quiet s s') : WatchdogCase s c s'
  | feed : WatchdogCase s .main ({ s with wdtCnt := 0 }.emit .cpu .wdtFeed).advance
  | count (d : Bool) (hw : s.wdtCnt + 1 ≠ s.params.wdtTimeout) :
      WatchdogCase s (.wdtTick d) { s with wdtCnt := s.wdtCnt + 1 }
  | reset (d : Bool) : WatchdogCase s (.wdtTick d) (s.watchdogReset d)

theorem MainCase.watchdogCase {s s' : State} (h : MainCase s s') : WatchdogCase s .main s' := by
  have q := Quiet.refl s
  cases h with
  | feed => exact .feed
  | raised code w => exact .quiet rfl { q.emit .cpu (.fault code) with }
  | sleep => exact .quiet rfl { q.emit .cpu .sleep with }
  | delay u n => exact .quiet rfl { q.emit .cpu (.delay u n) with }
  | flagsRead => exact .quiet rfl { q.emit .cpu (.flagsRead s.evflags) with }
  | flagsClear mask => exact .quiet rfl { q.emit .cpu (.flagsClear mask) with }
  | flagsXchg mask => exact .quiet rfl { q.emit .cpu (.flagsXchg mask (s.evflags &&& mask)) with }
  | halt => exact .quiet rfl { q.emit .cpu .halt with }
  | initEntry => exact .quiet rfl { q with }
  | moduleEntry m target => cases target <;> exact .quiet rfl { q with }
  | irq b => exact .quiet rfl { q with }
  | regRead v => exact .quiet rfl { q with }
  | goTo k => exact .quiet rfl { q with }
  | symEntry => exact .quiet rfl { (q.withTimer .sym _).emit .cpu .symResetCcr with }
  | symStep => exact .quiet rfl { (q.withTimer .sym _).emit .cpu .symResetCnt with }
  | initStep k => exact .quiet rfl (quiet_initMicro k s)
  | disableStep m k => exact .quiet rfl (quiet_disableMicro m k s)
  | enableStep m k => exact .quiet rfl (quiet_enableMicro m k s)
  | oscStep k => exact .quiet rfl (quiet_oscMicro k s)

theorem OtherCase.watchdogCase {s s' : State} {c : Choice} (h : OtherCase s c s') : WatchdogCase s c s' := by
  have q := Quiet.refl s
  cases h with
  | wdtCount d hw => exact .count d hw
  | wdtReset d => exact .reset d
  | nmiIdle | nmiWait | tickHb | tickSym | oscBad | oscGood | extReq => exact .quiet rfl { q with }
  | nmiEntry | nmiClear | nmiRetry | nmiExit | isrHb | isrHbWake | isrSym | isrExt | isrExtWake =>
    exact .quiet rfl { q with history := List.prefix_append _ _ }

theorem take_watchdogCase {s s' : State} {c : Choice} (h : take c s = .next s') : WatchdogCase s c s' := by
  obtain ⟨rfl, hm⟩ | ho := take_cases h
  · exact hm.watchdogCase
  · exact ho.watchdogCase

theorem WatchdogCase.extends {s s' : State} {c : Choice} (h : WatchdogCase s c s') : Extends s s' := by
  cases h with
  | quiet hc q => exact q.toExtends
  | feed => exact ⟨rfl, rfl, List.prefix_append _ _⟩
  | count d hw => exact { Extends.refl s with }
  | reset d => exact ⟨rfl, rfl, List.prefix_append _ _⟩

/-- Settles O52: every transition extends its state. -/
theorem noStepWritesProgramParametersOrThePast : Obligations.NoStepWritesProgramParametersOrThePast := by
  intro s s' hstep
  obtain ⟨c, -, htake⟩ := step_next hstep
  obtain ⟨hprogram, hparams, new, hnew⟩ := (take_watchdogCase htake).extends
  exact ⟨hprogram, hparams, new, hnew.symm⟩

/-! ### Runs -/

/-- Between `s` and `s'` the watchdog was fed or reset the system (R296). -/
def FedOrReset (s s' : State) : Prop :=
  ∃ new, s'.history = s.history ++ new ∧ ∃ r ∈ new, r.event = .wdtFeed ∨ r.event = .wdtReset

theorem Extends.fedOrReset {s t u : State} (h : Extends s t) (k : FedOrReset t u) : FedOrReset s u := by
  obtain ⟨before, hb⟩ := h.history
  obtain ⟨new, hn, r, hr, he⟩ := k
  exact ⟨before ++ new, by rw [hn, ← hb, List.append_assoc], r, List.mem_append_right _ hr, he⟩

theorem FedOrReset.extends {s t u : State} (h : FedOrReset s t) (k : Extends t u) : FedOrReset s u := by
  obtain ⟨new, hn, r, hr, he⟩ := h
  obtain ⟨after, ha⟩ := k.history
  exact ⟨new ++ after, by rw [← ha, hn, List.append_assoc], r, List.mem_append_left _ hr, he⟩

theorem RunsBy.extends {cs : List Choice} {s s' : State} (h : RunsBy cs s s') : Extends s s' := by
  induction cs generalizing s with
  | nil => exact h ▸ .refl s
  | cons c cs ih =>
    obtain ⟨-, t, htake, hrest⟩ := h
    exact Extends.trans (t := t) { (take_watchdogCase htake).extends with } (ih hrest)

theorem wdtTicks_cons (c : Choice) (cs : List Choice) :
    wdtTicks (c :: cs) = wdtTicks cs + if c.sameStep (.wdtTick false) then 1 else 0 := List.countP_cons

theorem wdtTicks_append (cs ds : List Choice) : wdtTicks (cs ++ ds) = wdtTicks cs + wdtTicks ds := List.countP_append

/-- Along a run without a feed and a reset the count grows with every watchdog tick and stays below the timeout (R296). -/
theorem RunsBy.fedOrReset_or_lt {cs : List Choice} {s s' : State} (h : RunsBy cs s s')
    (hlt : s.wdtCnt.toNat < s.params.wdtTimeout.toNat) :
    FedOrReset s s' ∨ s.wdtCnt.toNat + wdtTicks cs < s.params.wdtTimeout.toNat := by
  induction cs generalizing s with
  | nil => exact .inr hlt
  | cons c cs ih =>
    obtain ⟨-, t, htake, hrest⟩ := h
    have hcase := take_watchdogCase htake
    have hext : Extends s t := { hcase.extends with }
    have continued (ht : t.wdtCnt.toNat < s.params.wdtTimeout.toNat)
        (hsum : s.wdtCnt.toNat + wdtTicks (c :: cs) = t.wdtCnt.toNat + wdtTicks cs) :
        FedOrReset s s' ∨ s.wdtCnt.toNat + wdtTicks (c :: cs) < s.params.wdtTimeout.toNat := by
      rw [hsum, ← hext.params]
      exact (ih hrest (hext.params ▸ ht)).imp_left hext.fedOrReset
    cases hcase with
    | quiet hc q =>
      have hcnt : t.wdtCnt = s.wdtCnt := q.wdtCnt
      exact continued (hcnt ▸ hlt) (by rw [hcnt, wdtTicks_cons, hc]; rfl)
    | feed =>
      refine .inl (FedOrReset.extends ?_ hrest.extends)
      exact ⟨_, rfl, _, List.mem_singleton_self _, .inl rfl⟩
    | count d hw =>
      obtain ⟨hs, hlt'⟩ := toNat_succ_lt_of_ne hlt hw
      refine continued (hs ▸ hlt') ?_
      simp only [State.consume_wdtCnt, hs, wdtTicks_cons, Choice.sameStep, if_true]
      omega
    | reset d =>
      refine .inl (FedOrReset.extends ?_ hrest.extends)
      exact ⟨_, rfl, _, List.mem_singleton_self _, .inr rfl⟩

/-! ### Fair runs -/

/-- Every stretch of an infinite run is a finite run. -/
theorem InfiniteRun.runsBy {σ : Nat → State} {χ : Nat → Choice} (h : InfiniteRun σ χ) (n d : Nat) :
    RunsBy ((List.range' n d).map χ) (σ n) (σ (n + d)) := by
  induction d generalizing n with
  | zero => rfl
  | succ d ih =>
    obtain ⟨hen, htake⟩ := h n
    exact ⟨hen, σ (n + 1), htake, Nat.succ_add_eq_add_succ n d ▸ ih (n + 1)⟩

/-- In a fair run the watchdog ticks after every point: its tick is enabled in every state that steps (R296, R305). -/
theorem WeaklyFair.exists_tick {σ : Nat → State} {χ : Nat → Choice} (hf : WeaklyFair σ χ) (h : InfiniteRun σ χ) (n : Nat) :
    ∃ m, n ≤ m ∧ (χ m).sameStep (.wdtTick false) = true :=
  hf (.wdtTick false) rfl n fun m _ => alive_of_enabled (h m).1

/-- From every point of a fair run on, any number of watchdog ticks comes. -/
theorem WeaklyFair.exists_wdtTicks {σ : Nat → State} {χ : Nat → Choice} (hf : WeaklyFair σ χ) (h : InfiniteRun σ χ)
    (k n : Nat) : ∃ d, k ≤ wdtTicks ((List.range' n d).map χ) := by
  induction k generalizing n with
  | zero => exact ⟨0, Nat.zero_le _⟩
  | succ k ih =>
    obtain ⟨m, hm, htick⟩ := hf.exists_tick h n
    obtain ⟨e, rfl⟩ := Nat.exists_eq_add_of_le hm
    obtain ⟨d, hd⟩ := ih (n + e + 1)
    refine ⟨e + (d + 1), ?_⟩
    rw [← List.range'_append_1, List.range'_succ, List.map_append, List.map_cons, wdtTicks_append, wdtTicks_cons,
      if_pos htick]
    omega

/-- Settles O60: a fair run brings as many watchdog ticks as the timeout, and no run does without a feed or a reset. -/
theorem fairRunsFeedOrReset : Obligations.FairRunsFeedOrReset := by
  intro σ χ hrun hfair n hlt
  obtain ⟨d, hd⟩ := hfair.exists_wdtTicks hrun (σ n).params.wdtTimeout.toNat n
  obtain hfed | hbelow := (hrun.runsBy n d).fedOrReset_or_lt hlt
  · exact ⟨n + d, Nat.le_add_right n d, hfed⟩
  · omega

end Sys2Proof.Machine

/-!
SUPPORT. What each register reads as a number, and when it has no value (10_state.md rules R60 to R69).
-/

namespace Sys2Proof.Machine

/-! ### Register words as numbers -/

/-- A register of one-bit fields is the number with those binary digits, bit 0 first (R60). -/
theorem wordOfBits_eq_ofDigits (bs : List Bool) :
    wordOfBits bs = BitVec.ofNat 32 (Nat.ofDigits 2 (bs.map Bool.toNat)) := by
  induction bs with
  | nil => rfl
  | cons b rest ih =>
    have unfolded : wordOfBits (b :: rest) = BitVec.ofNat 32 b.toNat ||| wordOfBits rest <<< 1 := by cases b <;> rfl
    have disjoint : BitVec.ofNat 32 b.toNat &&& wordOfBits rest <<< 1 = 0#32 := by
      apply BitVec.eq_of_getLsbD_eq
      intro n hn
      cases b <;> cases n <;> simp
    have doubled : wordOfBits rest <<< 1 = BitVec.ofNat 32 2 * wordOfBits rest := by
      rw [BitVec.shiftLeft_eq_mul_twoPow, mul_comm]
      rfl
    rw [unfolded, ← BitVec.add_eq_or_of_and_eq_zero _ _ disjoint, doubled, ih, List.map_cons, Nat.ofDigits_cons,
      BitVec.ofNat_add, BitVec.ofNat_mul]

theorem toNat_append_eq_add {m n : Nat} (x : BitVec m) (y : BitVec n) :
    (x ++ y).toNat = 2 ^ n * x.toNat + y.toNat := by
  rw [BitVec.toNat_append, Nat.two_pow_add_eq_or_of_lt y.isLt, Nat.shiftLeft_eq, mul_comm]

/-- R67: the three fields of a serial configuration register, each at its place. -/
theorem serCfgWord_eq (c : SerCfg) :
    serCfgWord c =
      BitVec.ofNat 32 (c.setting.br.toNat + 65536 * c.setting.modulation.toNat + 16777216 * c.clk.toNat) := by
  apply BitVec.eq_of_toNat_eq
  have hbr := c.setting.br.isLt
  have hmod := c.setting.modulation.isLt
  have hclk := c.clk.isLt
  simp only [serCfgWord, toNat_append_eq_add, BitVec.ofNat_eq_ofNat, BitVec.toNat_ofNat]
  omega

/-! ### Registers that may have no value -/

/-- A register made of one field that may be UNKNOWN has no value exactly while that field is (R31). -/
theorem eq_map_iff_known {α : Type} {x : Option Word} {v : Option α} {g : α → Word} (h : x = v.map g) :
    (∀ a, v = some a → x = some (g a)) ∧ (x = none ↔ v = none) := by
  subst h
  cases v <;> simp

theorem moduleStatus_of_known {m : ModuleUnit} {rail : Rail} {rst : SerReset} {mux : PinMux} (hrail : m.rail = some rail)
    (hrst : m.serRst = some rst) (hmux : m.pinmux = some mux) :
    moduleStatus m = some (BitVec.ofNat 32 ((decide (m.mstate = .enabled)).toNat + 2 * (decide (rail = .on)).toNat
      + 4 * (decide (rst = .held)).toNat + 8 * (decide (mux = .serial)).toNat)) := by
  simp only [moduleStatus, hrail, hrst, hmux, wordOfBits_eq_ofDigits, List.map_cons, List.map_nil, Nat.ofDigits_cons,
    Nat.ofDigits_nil, beq_eq_decide]
  congr 2
  omega

theorem moduleStatus_eq_none_iff {m : ModuleUnit} :
    moduleStatus m = none ↔ m.rail = none ∨ m.serRst = none ∨ m.pinmux = none := by
  unfold moduleStatus
  cases m.rail <;> cases m.serRst <;> cases m.pinmux <;> simp

/-! ### The register index space -/

/-- R69: no register has an index from 0x10. -/
theorem regOfIndex_reserved {idx : BitVec 8} (h : 0x10 ≤ idx.toNat) : regOfIndex idx = none := by
  unfold regOfIndex
  split
  case h_17 => rfl
  all_goals omega

/-- Settles O22: each index names its register, whose word is one of the forms above. -/
theorem registerMapContents : Obligations.RegisterMapContents := by
  intro s
  have bits {bs : List Bool} {n : Nat} (h : Nat.ofDigits 2 (bs.map Bool.toNat) = n) :
      some (wordOfBits bs) = some (BitVec.ofNat 32 n) := by rw [wordOfBits_eq_ofDigits, h]
  refine ⟨?evflags, ?timers, ?hbCtl, ?symCtl, ?osc, ?clk, ?modules, ?serial, ?wdt, ?cpu, ?pins⟩
  case evflags => exact congrArg some (BitVec.ofNat_toNat 32 s.evflags).symm
  case timers =>
    intro v w idx hmem
    simp only [List.mem_cons, List.not_mem_nil, or_false, Prod.mk.injEq] at hmem
    obtain ⟨rfl, rfl, rfl⟩ | ⟨rfl, rfl, rfl⟩ | ⟨rfl, rfl, rfl⟩ | ⟨rfl, rfl, rfl⟩ := hmem <;>
      exact eq_map_iff_known rfl
  case modules =>
    intro m idx hmem
    simp only [List.mem_cons, List.not_mem_nil, or_false, Prod.mk.injEq] at hmem
    obtain ⟨rfl, rfl⟩ | ⟨rfl, rfl⟩ := hmem <;>
      exact ⟨fun _ _ _ => moduleStatus_of_known, moduleStatus_eq_none_iff⟩
  case serial =>
    intro m idx hmem
    simp only [List.mem_cons, List.not_mem_nil, or_false, Prod.mk.injEq] at hmem
    simp only [← serCfgWord_eq]
    obtain ⟨rfl, rfl⟩ | ⟨rfl, rfl⟩ := hmem <;> exact eq_map_iff_known rfl
  case wdt => rfl
  case hbCtl | symCtl | osc | clk | cpu | pins =>
    refine bits ?_
    simp only [List.map_cons, List.map_nil, Nat.ofDigits_cons, Nat.ofDigits_nil]
    omega

/-- Settles O21: the index names no register, so the command is the illegal one of R69. -/
theorem regReadOfAReservedIndexFaults : Obligations.RegReadOfAReservedIndexFaults := by
  intro s idx h
  simp only [exec, execRegRead, regOfIndex_reserved h]
  rfl

end Sys2Proof.Machine

/-!
SUPPORT. Exactly when an agent has a step, and that each step then answers (00_scope.md rule R9, 10_state.md rule R31).
-/

namespace Sys2Proof.Machine

/-! ### When an agent has a step -/

/-- A state that can step has a choice: the oscillator may always change (R293). -/
theorem freePick_isSome {s : State} (h : s.alive = true) : (freePick s).isSome = true := by
  have hmem : Choice.oscChange ∈ enabledChoices s := List.mem_filter.2 ⟨mem_allChoices _, h⟩
  have hidx : Config.freeChoice s.moment % (enabledChoices s).length < (enabledChoices s).length :=
    Nat.mod_lt _ (List.length_pos_of_mem hmem)
  simp [freePick, hidx]

theorem pick_eq_none_iff {s : State} : pick s = none ↔ s.alive = false := by
  constructor
  · intro hpick
    by_contra hlive
    have hsome := freePick_isSome (Bool.not_eq_false _ ▸ hlive)
    unfold pick at hpick
    split at hpick
    · simp [hpick] at hsome
    · split at hpick
      · cases hpick
      · simp [hpick] at hsome
  · intro hdead
    rw [Option.eq_none_iff_forall_ne_some]
    intro c hpick
    exact Bool.false_ne_true (hdead.symm.trans (alive_of_enabled (pick_enabled hpick)))

theorem alive_eq_false_iff {s : State} : s.alive = false ↔ s.fault ≠ none ∨ s.mode = .halted := by
  rw [← Bool.not_eq_true, alive_iff]
  tauto

/-- Where no agent has a step, `step` names the reason. -/
theorem step_of_not_alive {s : State} (h : s.alive = false) : step s = .fault (stopReason s) := by
  simp only [step, stepOnce, pick_eq_none_iff.2 h]

/-- Settles O9: a choice exists exactly in a live state, and a dead one stops by its reason. -/
theorem noAgentStepsAfterFaultOrHalt : Obligations.NoAgentStepsAfterFaultOrHalt := by
  intro s
  refine ⟨pick_eq_none_iff.trans alive_eq_false_iff, fun f hf => ?_, fun hf hm => ?_⟩
  · rw [step_of_not_alive (alive_eq_false_iff.2 (.inl (by simp [hf]))), stopReason, hf]
  · rw [step_of_not_alive (alive_eq_false_iff.2 (.inr hm)), stopReason, hf]

/-! ### Every enabled step answers -/

theorem coreCommand_answers (i : Instr) (s : State) (body : State → State) : ∃ s', coreCommand i s body = .next s' := by
  unfold coreCommand
  split <;> exact ⟨_, rfl⟩

theorem branchOnAcc_answers (i : Instr) (s : State) (mask : BitVec 8) (target : BitVec 16) (cond : Word → Bool) :
    ∃ s', branchOnAcc i s mask target cond = .next s' := by
  unfold branchOnAcc
  split <;> exact ⟨_, rfl⟩

theorem execRegRead_answers (idx : BitVec 8) (s : State) : ∃ s', execRegRead idx s = .next s' := by
  unfold execRegRead
  split
  · exact ⟨_, rfl⟩
  · split <;> exact ⟨_, rfl⟩

/-- Every command answers a next state in every state. -/
theorem exec_answers (i : Instr) (s : State) : ∃ s', exec i s = .next s' := by
  cases i with
  | initHw =>
    simp only [exec, execInitHw]
    split <;> exact ⟨_, rfl⟩
  | regRead idx => exact execRegRead_answers idx s
  | jmp | halt => exact ⟨_, rfl⟩
  | bz | bnz =>
    simp only [exec, execBz, execBnz]
    exact branchOnAcc_answers _ _ _ _ _
  | feedWdt | cfgGpsDisabled | cfgGpsEnabled | cfgRfDisabled | cfgRfEnabled | sleep | delayMs | delayUs | resetSym | flagsRead
  | flagsClear | flagsXchg | irqOff | irqOn =>
    simp only [exec, execFeedWdt, execCfgGpsDisabled, execCfgGpsEnabled, execCfgRfDisabled, execCfgRfEnabled, execSleep,
      execDelayMs, execDelayUs, execResetSym, execFlagsRead, execFlagsClear, execFlagsXchg, execIrqOff, execIrqOn]
    exact coreCommand_answers _ _ _

theorem fetchStep_answers (s : State) : ∃ s', fetchStep s = .next s' := by
  unfold fetchStep
  split
  · exact ⟨_, rfl⟩
  · split
    · exact ⟨_, rfl⟩
    · exact exec_answers _ s

theorem mainStep_answers (s : State) : ∃ s', mainStep s = .next s' := by
  unfold mainStep
  split
  · exact fetchStep_answers s
  all_goals exact ⟨_, rfl⟩

/-- A running timer's tick finds both registers known (R31, R48). -/
theorem tickTimer_answers {t : TimerId} {s : State} {w : Nat} (h : TimerInv w (s.timer t)) (hrun : (s.timer t).run = true) :
    ∃ s', tickTimer t s = .next s' := by
  obtain ⟨c, r, hc, hr, -⟩ := h.known hrun
  simp [tickTimer, hc, hr]

/-- A timer with a match pending has a compare register (R31, R50). -/
theorem TimerInv.ccr_of_pend {w : Nat} {x : Timer} (h : TimerInv w x) (hp : x.pend = true) : ∃ r, x.ccr = some r := by
  obtain ⟨-, r, -, hr, -⟩ := h.known (h.pending hp)
  exact ⟨r, hr⟩

theorem irqPending_of_maskableAccepted {s : State} {v : IrqSource} (h : maskableAccepted s v = true) :
    irqPending s v = true := by
  obtain ⟨-, -, -, hp, -⟩ := maskableAccepted_iff.1 h
  exact hp

/-- Under the invariant every enabled transition answers: no agent meets an UNKNOWN timer register (log entry 12). -/
theorem Inv.take_answers {s : State} (h : Inv s) {c : Choice} (he : enabled s c = true) : ∃ s', take c s = .next s' := by
  cases c with
  | main => exact mainStep_answers s
  | isrHb =>
    obtain ⟨r, hr⟩ := h.hb.ccr_of_pend (irqPending_of_maskableAccepted he)
    simp [take, isrHb, hr]
  | isrSym =>
    obtain ⟨r, hr⟩ := h.sym.ccr_of_pend (irqPending_of_maskableAccepted he)
    simp [take, isrSym, hr]
  | tickHb => exact tickTimer_answers (t := .hb) h.hb (Bool.and_eq_true_iff.1 he).2
  | tickSym => exact tickTimer_answers (t := .sym) h.sym (Bool.and_eq_true_iff.1 he).2
  | nmiEntry | nmiStep | isrExt | wdtTick | oscChange | extReq => exact ⟨_, rfl⟩

/-- Settles O45: a live state has a choice, it is enabled, and its transition answers. -/
theorem stepStopsOnlyAtTheEndOfARun : Obligations.StepStopsOnlyAtTheEndOfARun := by
  intro s h hf hm
  obtain ⟨c, hpick⟩ : ∃ c, pick s = some c := by
    rw [← Option.ne_none_iff_exists', ne_eq, pick_eq_none_iff, alive_iff.2 ⟨hf, hm⟩]
    exact Bool.noConfusion
  have hconsumed : Inv s.consume := { h with }
  obtain ⟨s', htake⟩ := hconsumed.take_answers ((enabled_consume s c).trans (pick_enabled hpick))
  exact ⟨s', by simp only [step, stepOnce, hpick, htake]⟩

end Sys2Proof.Machine

/-!
SUPPORT. Who may change the event flags, a Module State and the main-line state: one case list per part of the state, which the
cases of a transition fall under.
-/

namespace Sys2Proof.Machine

/-! ### Event flags -/

/-- A handler's bit-set sets its flag and keeps the others (R40). -/
theorem flagIsSet_setFlagBit (v : BitVec 3) (f g : EventFlag) :
    flagIsSet (setFlagBit v f) g = (flagIsSet v g || decide (f = g)) := by
  cases f <;> cases g <;> simp [flagIsSet, setFlagBit, EventFlag.bit]

/-- A clear keeps exactly the set flags outside its mask (R237, R238). -/
theorem flagIsSet_clearFlagBits (v mask : BitVec 3) (f : EventFlag) :
    flagIsSet (clearFlagBits v mask) f = (flagIsSet v f && !flagIsSet mask f) := by
  cases f <;> simp [flagIsSet, clearFlagBits, EventFlag.bit]

theorem flagIsSet_and (v mask : BitVec 3) (f : EventFlag) :
    flagIsSet (v &&& mask) f = (flagIsSet v f && flagIsSet mask f) := by
  simp [flagIsSet]

/-- The steps of the handler a flag belongs to (R40). -/
def EventFlag.SetBy : EventFlag → Choice → Prop
  | .hbDue, c => c = .isrHb
  | .symDue, c => c = .isrSym
  | .wakeReq, c => ∃ r, c = .isrExt r

/-- What a transition does to the event flags: main-line code clears them, handlers set them, a reset zeroes them (R40, R297). -/
inductive FlagCase (s : State) : Choice → State → Prop where
  | kept {c : Choice} {s' : State} (hv : s'.evflags = s.evflags) : FlagCase s c s'
  | cleared {s' : State} (mask : BitVec 3) (hv : s'.evflags = clearFlagBits s.evflags mask)
      (hh : s'.history = s.history ++ [⟨.cpu, .flagsClear mask⟩]) : FlagCase s .main s'
  | exchanged {s' : State} (mask : BitVec 3) (hv : s'.evflags = clearFlagBits s.evflags mask)
      (hh : s'.history = s.history ++ [⟨.cpu, .flagsXchg mask (s.evflags &&& mask)⟩]) : FlagCase s .main s'
  | set {c : Choice} {s' : State} (f : EventFlag) (hc : f.SetBy c) (hv : s'.evflags = setFlagBit s.evflags f) :
      FlagCase s c s'
  | reset (d : Bool) : FlagCase s (.wdtTick d) (s.watchdogReset d)

theorem evflags_disableEffect (m : ModuleId) (k : DisableStep) (s : State) : (disableEffect m k s).evflags = s.evflags := by
  cases k <;> simp [disableEffect]

theorem evflags_enableEffect (m : ModuleId) (k : EnableStep) (s : State) : (enableEffect m k s).evflags = s.evflags := by
  cases k <;> simp [enableEffect]

/-- I0 clears all three flags and records it (R132); no other micro-step of INIT_HW touches them. -/
theorem flagCase_initMicro (k : InitStep) (s : State) : FlagCase s .main (initMicro k s) := by
  cases k with
  | i0 => exact .cleared 0b111 (by simp [initMicro, clearFlagBits]) rfl
  | i3 k => cases k <;> exact .kept (evflags_disableEffect .gps _ s)
  | i4 k => cases k <;> exact .kept (evflags_disableEffect .rf _ s)
  | i1 | i2 | i5 | i6 | i7 => exact .kept rfl

theorem MainCase.flagCase {s s' : State} (h : MainCase s s') : FlagCase s .main s' := by
  cases h with
  | flagsClear mask => exact .cleared mask rfl rfl
  | flagsXchg mask => exact .exchanged mask rfl rfl
  | initStep k => exact flagCase_initMicro k s
  | moduleEntry m target => cases target <;> exact .kept rfl
  | disableStep m k => cases k <;> exact .kept (evflags_disableEffect m _ s)
  | enableStep m k => cases k <;> exact .kept (evflags_enableEffect m _ s)
  | oscStep k => cases k <;> exact .kept rfl
  | raised | initEntry | feed | sleep | delay | symEntry | flagsRead | irq | regRead | goTo | halt | symStep =>
    exact .kept rfl

theorem OtherCase.flagCase {s s' : State} {c : Choice} (h : OtherCase s c s') : FlagCase s c s' := by
  cases h with
  | isrHb | isrHbWake => exact .set .hbDue rfl rfl
  | isrSym => exact .set .symDue rfl rfl
  | isrExt r => exact .set .wakeReq ⟨r, rfl⟩ rfl
  | isrExtWake => exact .set .wakeReq ⟨true, rfl⟩ rfl
  | wdtReset d => exact .reset d
  | nmiEntry | nmiIdle | nmiClear | nmiWait | nmiRetry | nmiExit | tickHb | tickSym | wdtCount | oscBad | oscGood | extReq =>
    exact .kept rfl

/-- Every step's effect on the flags, the choice picked named. -/
theorem step_flagCase {s s' : State} (h : step s = .next s') : ∃ c, pick s = some c ∧ FlagCase s.consume c s' := by
  obtain ⟨c, hpick, -, ⟨rfl, hm⟩ | ho⟩ := step_cases h
  · exact ⟨.main, hpick, hm.flagCase⟩
  · exact ⟨c, hpick, ho.flagCase⟩

/-- Settles O53: only a clear, an exchange and a reset take a flag away, and each is recorded. -/
theorem flagsAreClearedOnlyByCommandsOrReset : Obligations.FlagsAreClearedOnlyByCommandsOrReset := by
  intro s s' f hstep hset hclear
  obtain ⟨c, -, hcase⟩ := step_flagCase hstep
  cases hcase with
  | kept hv => simp [hv, hset] at hclear
  | cleared mask hv hh =>
    have hmask : flagIsSet mask f = true := by simpa [hv, flagIsSet_clearFlagBits, hset] using hclear
    exact ⟨_, hh, .inl ⟨mask, rfl, hmask⟩⟩
  | exchanged mask hv hh =>
    have hmask : flagIsSet mask f = true := by simpa [hv, flagIsSet_clearFlagBits, hset] using hclear
    exact ⟨_, hh, .inr (.inl ⟨mask, _, rfl, by simp [flagIsSet_and, hset, hmask]⟩)⟩
  | set g hc hv => simp [hv, flagIsSet_setFlagBit, hset] at hclear
  | reset d => exact ⟨_, rfl, .inr (.inr rfl)⟩

/-- Settles O54: only a handler's bit-set brings a flag that was clear, and it sets its own flag alone. -/
theorem flagsAreSetOnlyByTheirHandler : Obligations.FlagsAreSetOnlyByTheirHandler := by
  intro s s' f hstep hclear hset
  obtain ⟨c, hpick, hcase⟩ := step_flagCase hstep
  have hby : f.SetBy c := by
    cases hcase with
    | kept hv => simp [hv, hclear] at hset
    | cleared mask hv | exchanged mask hv => simp [hv, flagIsSet_clearFlagBits, hclear] at hset
    | set g hc hv =>
      obtain rfl : g = f := by simpa [hv, flagIsSet_setFlagBit, hclear] using hset
      exact hc
    | reset d => simp [flagIsSet] at hset
  cases f with
  | hbDue | symDue => exact hpick.trans (congrArg some hby)
  | wakeReq =>
    obtain ⟨r, rfl⟩ := hby
    exact ⟨r, hpick⟩

/-! ### The main-line state -/

/-- `s'` has the main-line state of `s`, but for the mode (R36, R286). -/
structure SameMainLine (s s' : State) : Prop where
  pc : s'.pc = s.pc
  phase : s'.phase = s.phase
  acc : s'.acc = s.acc
  gie : s'.gie = s.gie
  initDone : s'.initDone = s.initDone
  gps : s'.gps = s.gps
  rf : s'.rf = s.rf
  clkCfg : s'.clkCfg = s.clkCfg
  clkConfigured : s'.clkConfigured = s.clkConfigured
  unusedParked : s'.unusedParked = s.unusedParked
  faultIe : s'.faultIe = s.faultIe
  xoscOn : s'.xoscOn = s.xoscOn
  fault : s'.fault = s.fault

theorem SameMainLine.refl (s : State) : SameMainLine s s := by constructor <;> rfl

theorem SameMainLine.moduleUnit {s s' : State} (h : SameMainLine s s') : ∀ m, s'.moduleUnit m = s.moduleUnit m
  | .gps => h.gps
  | .rf => h.rf

/-- What the mode and the main-line state become in a transition of another agent (R285, R286, R289, R290, R297). -/
inductive OutsideCase (s : State) : Choice → State → Prop where
  | kept {c : Choice} {s' : State}
      (hm : s'.mode = s.mode ∨
        (s.mode = .sleep ∧ s'.mode = .active ∧
          ((c = .isrHb ∧ flagIsSet s.evflags .wakeReq = true) ∨ c = .isrExt true)))
      (h : SameMainLine s s') : OutsideCase s c s'
  | reset {s' : State} (d : Bool) (hh : s'.history = s.history ++ [⟨.wdt, .wdtReset⟩]) : OutsideCase s (.wdtTick d) s'

theorem OtherCase.outsideCase {s s' : State} {c : Choice} (h : OtherCase s c s') : OutsideCase s c s' := by
  have same := SameMainLine.refl s
  cases h with
  | isrHbWake c hr hw hs => exact .kept (.inr ⟨hs, rfl, .inl ⟨rfl, hw⟩⟩) { same with }
  | isrExtWake hs => exact .kept (.inr ⟨hs, rfl, .inr rfl⟩) { same with }
  | wdtReset d => exact .reset d rfl
  | nmiEntry | nmiIdle | nmiClear | nmiWait | nmiRetry | nmiExit | isrHb | isrSym | isrExt | tickHb | tickSym | wdtCount
  | oscBad | oscGood | extReq => exact .kept (.inl rfl) { same with }

/-- Settles O56: every other agent's transition keeps the main-line state, resumes the CPU, or resets. -/
theorem otherStepsKeepTheMainLineState : Obligations.OtherStepsKeepTheMainLineState := by
  intro s s' c hc htake
  obtain ⟨rfl, -⟩ | ho := take_cases htake
  · exact absurd rfl hc
  · cases ho.outsideCase with
    | kept hm h =>
      exact .inl ⟨hm, h.pc, h.phase, h.acc, h.gie, h.initDone, h.gps, h.rf, h.clkCfg, h.clkConfigured, h.unusedParked,
        h.faultIe, h.xoscOn, h.fault⟩
    | reset d hh => exact .inr ⟨⟨d, rfl⟩, hh⟩

/-! ### Module States -/

/-- What a transition does to the Module States (R43, R174). -/
inductive ModStateCase (s s' : State) : Prop where
  | kept (hm : ∀ m, (s'.moduleUnit m).mstate = (s.moduleUnit m).mstate)
  | recorded (m : ModuleId) (hm : ∀ m', m' ≠ m → (s'.moduleUnit m').mstate = (s.moduleUnit m').mstate)
      (hh : s'.history = s.history ++ [⟨.cpu, .moduleState m (s'.moduleUnit m).mstate⟩])
  | reset (hh : s'.history = s.history ++ [⟨.wdt, .wdtReset⟩])

/-- Only the modules and the history count. -/
theorem ModStateCase.congr {s s' t : State} (h : ModStateCase s s') (hu : ∀ m, t.moduleUnit m = s'.moduleUnit m)
    (hh : t.history = s'.history) : ModStateCase s t := by
  cases h with
  | kept hm => exact .kept (by simpa only [hu] using hm)
  | recorded m hm hrec => exact .recorded m (by simpa only [hu] using hm) (by rw [hh, hu, hrec])
  | reset hres => exact .reset (hh.trans hres)

theorem moduleUnit_withModule_other (s : State) (x : ModuleUnit) :
    ∀ {m m' : ModuleId}, m' ≠ m → (s.withModule m x).moduleUnit m' = s.moduleUnit m'
  | .gps, .rf, _ => rfl
  | .rf, .gps, _ => rfl
  | .gps, .gps, h => absurd rfl h
  | .rf, .rf, h => absurd rfl h

/-- An output write keeps the Module States. -/
theorem mstate_withModule {s : State} {m : ModuleId} {x : ModuleUnit} (hx : x.mstate = (s.moduleUnit m).mstate)
    (m' : ModuleId) : ((s.withModule m x).moduleUnit m').mstate = (s.moduleUnit m').mstate := by
  by_cases h : m' = m
  · rw [h, State.moduleUnit_withModule, hx]
  · rw [moduleUnit_withModule_other s x h]

/-- Step S writes the Module State of its module and records it (R174). -/
theorem modStateCase_writeState (s : State) (m : ModuleId) (v : ModState) :
    ModStateCase s ((s.withModule m { s.moduleUnit m with mstate := v }).emit .cpu (.moduleState m v)) := by
  refine .recorded m (fun m' h => ?_) ?_
  · exact congrArg ModuleUnit.mstate (moduleUnit_withModule_other s _ h)
  · have hv : (((s.withModule m { s.moduleUnit m with mstate := v }).emit .cpu (.moduleState m v)).moduleUnit m).mstate = v :=
      congrArg ModuleUnit.mstate (State.moduleUnit_withModule s m _)
    rw [hv, State.emit_history, State.withModule_history]

theorem modStateCase_disableEffect (m : ModuleId) (k : DisableStep) (s : State) : ModStateCase s (disableEffect m k s) := by
  cases k with
  | d1 | d2 | d3 => exact .kept (mstate_withModule rfl)
  | s => exact modStateCase_writeState s m .disabled

theorem modStateCase_enableEffect (m : ModuleId) (k : EnableStep) (s : State) : ModStateCase s (enableEffect m k s) := by
  cases k with
  | e1 | e2 | e3 | e4 => exact .kept (mstate_withModule rfl)
  | s => exact modStateCase_writeState s m .enabled

theorem modStateCase_initMicro (k : InitStep) (s : State) : ModStateCase s (initMicro k s) := by
  cases k with
  | i3 k => cases k <;> exact (modStateCase_disableEffect .gps _ s).congr (fun _ => rfl) rfl
  | i4 k => cases k <;> exact (modStateCase_disableEffect .rf _ s).congr (fun _ => rfl) rfl
  | i2 => exact .kept (fun m => by cases m <;> rfl)
  | i0 | i1 | i5 | i6 | i7 => exact .kept (fun _ => rfl)

theorem MainCase.modStateCase {s s' : State} (h : MainCase s s') : ModStateCase s s' := by
  cases h with
  | initStep k => exact modStateCase_initMicro k s
  | disableStep m k => cases k <;> exact (modStateCase_disableEffect m _ s).congr (fun _ => rfl) rfl
  | enableStep m k => cases k <;> exact (modStateCase_enableEffect m _ s).congr (fun _ => rfl) rfl
  | moduleEntry m target => cases target <;> exact .kept (fun _ => rfl)
  | oscStep k => cases k <;> exact .kept (fun _ => rfl)
  | raised | initEntry | feed | sleep | delay | symEntry | flagsRead | flagsClear | flagsXchg | irq | regRead | goTo | halt
  | symStep => exact .kept (fun _ => rfl)

theorem OtherCase.modStateCase {s s' : State} {c : Choice} (h : OtherCase s c s') : ModStateCase s s' := by
  cases h.outsideCase with
  | kept hm h => exact .kept fun m => congrArg ModuleUnit.mstate (h.moduleUnit m)
  | reset d hh => exact .reset hh

/-- Settles O58: a transition that changes a Module State is step S of that module, which records it, or a reset. -/
theorem moduleStateChangesOnlyWhereRecorded : Obligations.ModuleStateChangesOnlyWhereRecorded := by
  intro s s' m hstep hchanged
  obtain ⟨c, -, -, hcase⟩ := step_cases hstep
  have hmod : ModStateCase s.consume s' := hcase.elim (fun h => h.2.modStateCase) OtherCase.modStateCase
  cases hmod with
  | kept hm => exact absurd (hm m) hchanged
  | recorded m' hm hh =>
    obtain rfl : m = m' := by
      by_contra hne
      exact hchanged (hm m hne)
    exact .inl hh
  | reset hh => exact .inr hh

end Sys2Proof.Machine

/-!
SUPPORT. What the byte decoder answers on the four bytes of a word (R83, R112).
-/

namespace Sys2Proof.Machine

/-- Four bytes decode as the word they spell, legal or not, and the bytes after them are kept. -/
theorem decodeBytes_cons₄ (b0 b1 b2 b3 : Byte) (rest : List Byte) :
    decodeBytes (b0 :: b1 :: b2 :: b3 :: rest) = (decode (wordOfBytes b0 b1 b2 b3)).map (·, rest) := by
  rw [decodeBytes]
  cases decode (wordOfBytes b0 b1 b2 b3) with
  | ok i => rfl
  | error e => rfl

/-- A word's own four bytes, least significant first, decode as that word, legal or not. -/
theorem decodeBytes_bytesOfWord_append (w : Word) (rest : List Byte) :
    decodeBytes (bytesOfWord w ++ rest) = (decode w).map (·, rest) :=
  calc decodeBytes (bytesOfWord w ++ rest)
    _ = (decode (wordOfBytes (w.extractLsb' 0 8) (w.extractLsb' 8 8) (w.extractLsb' 16 8)
          (w.extractLsb' 24 8))).map (·, rest) := decodeBytes_cons₄ ..
    _ = (decode w).map (·, rest) := by rw [wordOfBytes_extract]

/-- Settles O5: the four bytes spell the word back, so the byte decoder answers as the word's own decoding does. -/
theorem storedBytesDecodeAsTheirWord : Obligations.StoredBytesDecodeAsTheirWord := by
  intro w i rest hw
  rw [decodeBytes_bytesOfWord_append, hw]
  rfl

end Sys2Proof.Machine

/-!
SUPPORT. The decoder and the encoder are inverses of each other on the well-formed commands (30_encoding.md rules R100 to R113).
-/

namespace Sys2Proof

/-! ### Decode after encode -/

/-- A 3-bit mask in the A field leaves its upper five bits 0 and is read back (R104). -/
theorem aField_of_mask3 : ∀ mask : BitVec 3,
    (mask.setWidth 8).extractLsb' 3 5 = 0 ∧ (mask.setWidth 8).extractLsb' 0 3 = mask := by decide

theorem decode_encode {i : Instr} (hwf : i.wellFormed = true) : decode (encode i) = .ok i := by
  simp only [decode, encode, opcField_mkWord, aField_mkWord, immField_mkWord]
  cases i with
  | initHw | feedWdt | sleep | resetSym | flagsRead | irqOff | irqOn | halt => exact decodePlain_ok.2 ⟨rfl, rfl, rfl⟩
  | cfgGpsDisabled => exact decodeModsel_ok.2 ⟨rfl, .inl ⟨rfl, rfl⟩⟩
  | cfgGpsEnabled => exact decodeModsel_ok.2 ⟨rfl, .inr (.inl ⟨rfl, rfl⟩)⟩
  | cfgRfDisabled => exact decodeModsel_ok.2 ⟨rfl, .inr (.inr (.inl ⟨rfl, rfl⟩))⟩
  | cfgRfEnabled => exact decodeModsel_ok.2 ⟨rfl, .inr (.inr (.inr ⟨rfl, rfl⟩))⟩
  | delayMs | delayUs | jmp => exact decodeImm_ok.2 ⟨rfl, rfl⟩
  | flagsClear mask | flagsXchg mask =>
    obtain ⟨hupper, hmask⟩ := aField_of_mask3 mask
    exact decodeMask3_ok.2 ⟨hupper, rfl, congrArg _ hmask.symm⟩
  | regRead idx => exact decodeRegidx_ok.2 ⟨rfl, of_decide_eq_true hwf, rfl⟩
  | bz | bnz => rfl

/-- Settles O1: each operand form reads the operands of its commands back. -/
theorem decodeOfEncodedCommand : Obligations.DecodeOfEncodedCommand :=
  fun _ => decode_encode

/-! ### Encode after decode -/

/-- A word with a command's three fields is the command's word. -/
theorem encode_eq_of_fields {i : Instr} {w : Word} (hopc : opcField w = i.opcode) (ha : aField w = i.aOperand)
    (himm : immField w = i.immOperand) : encode i = w := by
  rw [encode, ← hopc, ← ha, ← himm, mkWord_fields]

/-- What a legal word decodes to has the word's three fields, and a register index below the reserved ones. -/
theorem encode_of_decode_ok {w : Word} {i : Instr} (h : decode w = .ok i) : encode i = w ∧ i.wellFormed = true := by
  unfold decode at h
  dsimp only at h
  split at h
  case h_1 hopc | h_2 hopc | h_4 hopc | h_7 hopc | h_8 hopc | h_11 hopc | h_12 hopc | h_17 hopc =>
    obtain ⟨ha, himm, rfl⟩ := decodePlain_ok.1 h
    exact ⟨encode_eq_of_fields (BitVec.eq_of_toNat_eq hopc) ha himm, rfl⟩
  case h_3 hopc =>
    obtain ⟨himm, ⟨ha, rfl⟩ | ⟨ha, rfl⟩ | ⟨ha, rfl⟩ | ⟨ha, rfl⟩⟩ := decodeModsel_ok.1 h
    all_goals exact ⟨encode_eq_of_fields (BitVec.eq_of_toNat_eq hopc) ha himm, rfl⟩
  case h_5 hopc | h_6 hopc | h_14 hopc =>
    obtain ⟨ha, rfl⟩ := decodeImm_ok.1 h
    exact ⟨encode_eq_of_fields (BitVec.eq_of_toNat_eq hopc) ha rfl, rfl⟩
  case h_9 hopc | h_10 hopc =>
    obtain ⟨hupper, himm, rfl⟩ := decodeMask3_ok.1 h
    exact ⟨encode_eq_of_fields (BitVec.eq_of_toNat_eq hopc) (mask3_of_aField _ hupper).symm himm, rfl⟩
  case h_13 hopc =>
    obtain ⟨himm, hidx, rfl⟩ := decodeRegidx_ok.1 h
    exact ⟨encode_eq_of_fields (BitVec.eq_of_toNat_eq hopc) rfl himm, decide_eq_true hidx⟩
  case h_15 hopc | h_16 hopc =>
    cases h
    exact ⟨encode_eq_of_fields (BitVec.eq_of_toNat_eq hopc) rfl rfl, rfl⟩
  case h_18 => cases h

/-- Settles O2: every operand form fixes all the bits its command does not hold, so the fields give the word back. -/
theorem encodeOfDecodedWord : Obligations.EncodeOfDecodedWord :=
  fun _ _ => encode_of_decode_ok

/-- Settles O4: each of the seven words is the encoding of its command. -/
theorem specWordsDecode : Obligations.SpecWordsDecode :=
  ⟨decode_encode (i := .initHw) rfl, decode_encode (i := .cfgRfEnabled) rfl, decode_encode (i := .delayMs 65535) rfl,
    decode_encode (i := .flagsClear 0b011) rfl, decode_encode (i := .regRead 0x0F) rfl,
    decode_encode (i := .bnz 0x04 0) rfl, decode_encode (i := .halt) rfl⟩

end Sys2Proof

/-!
SUPPORT. The rows of opcode_table.json hold the words of the well-formed commands and no others (R110, R113).
-/

namespace Sys2Proof.Machine

/-! ### Which words match a row, by the row's mask -/

section RowMasks

variable {w v : Word}

/-- A word is compared with a value under a mask field by field. -/
theorem and_mkWord_eq_iff {mopc ma : BitVec 8} {mimm : BitVec 16} : w &&& mkWord mopc ma mimm = v ↔
    opcField w &&& mopc = opcField v ∧ aField w &&& ma = aField v ∧ immField w &&& mimm = immField v := by
  have hopc : opcField (w &&& mkWord mopc ma mimm) = opcField w &&& mopc := by
    rw [opcField, BitVec.extractLsb'_and, ← opcField, ← opcField, opcField_mkWord]
  have ha : aField (w &&& mkWord mopc ma mimm) = aField w &&& ma := by
    rw [aField, BitVec.extractLsb'_and, ← aField, ← aField, aField_mkWord]
  have himm : immField (w &&& mkWord mopc ma mimm) = immField w &&& mimm := by
    rw [immField, BitVec.extractLsb'_and, ← immField, ← immField, immField_mkWord]
  rw [← hopc, ← ha, ← himm]
  constructor
  · rintro rfl
    exact ⟨rfl, rfl, rfl⟩
  · rintro ⟨hopc', ha', himm'⟩
    rw [← mkWord_fields (w &&& _), hopc', ha', himm', mkWord_fields]

/-- The row of a command without operands (R101, R103). -/
theorem fixed_row_iff : w &&& 0xFFFFFFFF = v ↔ w = v := by
  rw [show w &&& 0xFFFFFFFF = w from BitVec.and_allOnes]

/-- The row of a `count` or `target` with A all 0 (R102). -/
theorem imm_row_iff (hv : immField v = 0#16) :
    w &&& 0xFFFF0000 = v ↔ opcField w = opcField v ∧ aField w = aField v := by
  change w &&& mkWord (BitVec.allOnes 8) (BitVec.allOnes 8) 0#16 = v ↔ _
  simp only [and_mkWord_eq_iff, BitVec.and_allOnes, BitVec.and_zero, hv, and_true]

/-- The row of a `mask3` (R104). -/
theorem mask3_row_iff (hv : aField v = 0) : w &&& 0xFFF8FFFF = v ↔
    opcField w = opcField v ∧ (aField w).extractLsb' 3 5 = 0 ∧ immField w = immField v := by
  have hupper : ∀ a : BitVec 8, a &&& 0xF8 = 0 ↔ a.extractLsb' 3 5 = 0 := by decide
  change w &&& mkWord (BitVec.allOnes 8) 0xF8 (BitVec.allOnes 16) = v ↔ _
  rw [and_mkWord_eq_iff, BitVec.and_allOnes, BitVec.and_allOnes, hv, hupper]

/-- The row of a `regidx`: its mask keeps the four bits that are 0 in the indices of R60 to R68 alone (R69). -/
theorem regidx_row_iff (hv : aField v = 0) : w &&& 0xFFF0FFFF = v ↔
    opcField w = opcField v ∧ (aField w).toNat < firstReservedIndex ∧ immField w = immField v := by
  have hindex : ∀ a : BitVec 8, a &&& 0xF0 = 0 ↔ a.toNat < firstReservedIndex := by decide
  change w &&& mkWord (BitVec.allOnes 8) 0xF0 (BitVec.allOnes 16) = v ↔ _
  rw [and_mkWord_eq_iff, BitVec.and_allOnes, BitVec.and_allOnes, hv, hindex]

/-- The row of a `mask8` with a `target`, where both operand fields are free (R105). -/
theorem branch_row_iff (ha : aField v = 0#8) (himm : immField v = 0#16) :
    w &&& 0xFF000000 = v ↔ opcField w = opcField v := by
  change w &&& mkWord (BitVec.allOnes 8) 0#8 0#16 = v ↔ _
  simp only [and_mkWord_eq_iff, BitVec.and_allOnes, BitVec.and_zero, ha, himm, and_true]

end RowMasks

/-! ### Rows and commands -/

/-- The word of a well-formed command matches the command's own row. -/
theorem encode_matches_row {i : Instr} (hwf : i.wellFormed = true) :
    ∃ r, opcodeRows[rowOf i]? = some r ∧ encode i &&& r.mask = r.value := by
  have hopc : opcField (encode i) = i.opcode := opcField_mkWord ..
  have ha : aField (encode i) = i.aOperand := aField_mkWord ..
  have himm : immField (encode i) = i.immOperand := immField_mkWord ..
  cases i with
  | initHw | feedWdt | cfgGpsDisabled | cfgGpsEnabled | cfgRfDisabled | cfgRfEnabled | sleep | resetSym | flagsRead
  | irqOff | irqOn | halt => exact ⟨_, rfl, fixed_row_iff.2 rfl⟩
  | delayMs | delayUs | jmp => exact ⟨_, rfl, (imm_row_iff rfl).2 ⟨hopc, ha⟩⟩
  | flagsClear mask | flagsXchg mask =>
    exact ⟨_, rfl, (mask3_row_iff rfl).2 ⟨hopc, ha ▸ (aField_of_mask3 mask).1, himm⟩⟩
  | regRead idx => exact ⟨_, rfl, (regidx_row_iff rfl).2 ⟨hopc, ha ▸ of_decide_eq_true hwf, himm⟩⟩
  | bz | bnz => exact ⟨_, rfl, (branch_row_iff rfl rfl).2 hopc⟩

/-- A word that matches a row is the word of a well-formed command of that row, which takes its operands from the word. -/
theorem exists_command_of_row {w : Word} {k : Nat} {r : OpcodeRow} (hr : opcodeRows[k]? = some r)
    (h : w &&& r.mask = r.value) : ∃ i : Instr, i.wellFormed = true ∧ encode i = w ∧ rowOf i = k := by
  match k, hr with
  | 0, rfl => exact ⟨.initHw, rfl, (fixed_row_iff.1 h).symm, rfl⟩
  | 1, rfl => exact ⟨.feedWdt, rfl, (fixed_row_iff.1 h).symm, rfl⟩
  | 2, rfl => exact ⟨.cfgGpsDisabled, rfl, (fixed_row_iff.1 h).symm, rfl⟩
  | 3, rfl => exact ⟨.cfgGpsEnabled, rfl, (fixed_row_iff.1 h).symm, rfl⟩
  | 4, rfl => exact ⟨.cfgRfDisabled, rfl, (fixed_row_iff.1 h).symm, rfl⟩
  | 5, rfl => exact ⟨.cfgRfEnabled, rfl, (fixed_row_iff.1 h).symm, rfl⟩
  | 6, rfl => exact ⟨.sleep, rfl, (fixed_row_iff.1 h).symm, rfl⟩
  | 7, rfl =>
    obtain ⟨hopc, ha⟩ := (imm_row_iff rfl).1 h
    exact ⟨.delayMs (immField w), rfl, encode_eq_of_fields hopc ha rfl, rfl⟩
  | 8, rfl =>
    obtain ⟨hopc, ha⟩ := (imm_row_iff rfl).1 h
    exact ⟨.delayUs (immField w), rfl, encode_eq_of_fields hopc ha rfl, rfl⟩
  | 9, rfl => exact ⟨.resetSym, rfl, (fixed_row_iff.1 h).symm, rfl⟩
  | 10, rfl => exact ⟨.flagsRead, rfl, (fixed_row_iff.1 h).symm, rfl⟩
  | 11, rfl =>
    obtain ⟨hopc, hupper, himm⟩ := (mask3_row_iff rfl).1 h
    exact ⟨.flagsClear _, rfl, encode_eq_of_fields hopc (mask3_of_aField _ hupper).symm himm, rfl⟩
  | 12, rfl =>
    obtain ⟨hopc, hupper, himm⟩ := (mask3_row_iff rfl).1 h
    exact ⟨.flagsXchg _, rfl, encode_eq_of_fields hopc (mask3_of_aField _ hupper).symm himm, rfl⟩
  | 13, rfl => exact ⟨.irqOff, rfl, (fixed_row_iff.1 h).symm, rfl⟩
  | 14, rfl => exact ⟨.irqOn, rfl, (fixed_row_iff.1 h).symm, rfl⟩
  | 15, rfl =>
    obtain ⟨hopc, hidx, himm⟩ := (regidx_row_iff rfl).1 h
    exact ⟨.regRead (aField w), decide_eq_true hidx, encode_eq_of_fields hopc rfl himm, rfl⟩
  | 16, rfl =>
    obtain ⟨hopc, ha⟩ := (imm_row_iff rfl).1 h
    exact ⟨.jmp (immField w), rfl, encode_eq_of_fields hopc ha rfl, rfl⟩
  | 17, rfl =>
    exact ⟨.bz (aField w) (immField w), rfl, encode_eq_of_fields ((branch_row_iff rfl rfl).1 h) rfl rfl, rfl⟩
  | 18, rfl =>
    exact ⟨.bnz (aField w) (immField w), rfl, encode_eq_of_fields ((branch_row_iff rfl rfl).1 h) rfl rfl, rfl⟩
  | 19, rfl => exact ⟨.halt, rfl, (fixed_row_iff.1 h).symm, rfl⟩

/-- Settles O3: the rows hold the words of the well-formed commands, and those are the words that decode. -/
theorem decoderFollowsTheOpcodeTable : Obligations.DecoderFollowsTheOpcodeTable := by
  constructor
  · intro w k r hr h
    obtain ⟨i, hwf, rfl, hrow⟩ := exists_command_of_row hr h
    exact ⟨i, decode_encode hwf, hrow⟩
  · intro w hnone
    cases hw : decode w with
    | error e => exact ⟨e, rfl⟩
    | ok i =>
      obtain ⟨rfl, hwf⟩ := encode_of_decode_ok hw
      obtain ⟨r, hr, hmatch⟩ := encode_matches_row hwf
      exact absurd hmatch (hnone r (List.mem_of_getElem? hr))

end Sys2Proof.Machine

/-!
SUPPORT. Runs pinned to main-line code, the micro-steps of INIT_HW in a row, its entry step, and the clock tree's one configuration
(40_init.md rules R130 to R142).
-/

namespace Sys2Proof.Machine

/-! ### Commands at a command boundary -/

/-- Main-line code at a word executes the command the word decodes to (R260). -/
theorem mainStep_of_decode {s : State} {w : Word} {i : Instr} (hp : s.phase = .fetch) (hw : s.program[s.pc]? = some w)
    (hi : decode w = .ok i) : mainStep s = exec i s := by
  simp only [mainStep, hp, fetchStep, fetchWord, hw, hi]

/-- A core command runs its body once INIT_HW is done (R267). -/
theorem coreCommand_of_done {s : State} (hd : s.initDone = true) (i : Instr) (body : State → State) :
    coreCommand i s body = .next (body s) := by
  simp only [coreCommand, hd, if_true]

theorem exec_initHw_of_not_done {s : State} (hd : s.initDone = false) :
    exec .initHw s = .next { s with phase := .init .i0 } := by
  simp only [exec, execInitHw, hd, Bool.false_eq_true, if_false]

theorem exec_initHw_of_done {s : State} (hd : s.initDone = true) :
    exec .initHw s = .next (s.raise .reInit (some (encode .initHw))) := by
  simp only [exec, execInitHw, hd, if_true]

/-! ### Runs pinned to main-line code -/

/-- Main-line code has a step, and the next `n` choices are pinned to it. -/
structure MainPinned (s : State) (n : Nat) : Prop where
  fault : s.fault = none
  mode : s.mode = .active
  ctx : s.ctx = .main
  schedule : s.schedule = List.replicate n .main

theorem mainPinned_pinMain {s : State} (hf : s.fault = none) (hm : s.mode = .active) (hc : s.ctx = .main) (n : Nat) :
    MainPinned (s.pinMain n) n := ⟨hf, hm, hc, rfl⟩

/-- The pinned step is main-line code's. -/
theorem MainPinned.step_eq {s : State} {n : Nat} (h : MainPinned s (n + 1)) : step s = mainStep s.consume := by
  have he : enabled s .main = true := enabled_main_iff.2 ⟨alive_iff.2 ⟨h.fault, by simp [h.mode]⟩, h.ctx, h.mode⟩
  simp only [step, stepOnce, pick_pinned h.schedule he, take]

/-- A pinned run takes main-line code's step first. -/
theorem MainPinned.runSteps_succ {s t : State} {n : Nat} (h : MainPinned s (n + 1)) (ht : mainStep s.consume = .next t) :
    runSteps (n + 1) s = runSteps n t := by
  simp only [runSteps, h.step_eq, ht]

/-- The bookkeeping of a pinned step uses up one pin. -/
theorem MainPinned.consume {s : State} {n : Nat} (h : MainPinned s (n + 1)) : MainPinned s.consume n :=
  ⟨h.fault, h.mode, h.ctx, congrArg List.tail h.schedule⟩

/-! ### The micro-steps of INIT_HW in a row -/

/-- The micro-steps of INIT_HW in the order of R131, I3 and I4 opened into their disable sequences (R135, R136). -/
def initSteps : List InitStep :=
  [.i0, .i1, .i2, .i3 .d1, .i3 .d2, .i3 .d3, .i3 .s, .i4 .d1, .i4 .d2, .i4 .d3, .i4 .s, .i5, .i6, .i7]

/-- One micro-step of INIT_HW, the scheduler's bookkeeping before it. -/
def initPinned (s : State) (k : InitStep) : State := initMicro k s.consume

/-- Micro-step `k` leaves main-line code at micro-step `k'`. -/
def InitStep.LeadsTo (k k' : InitStep) : Prop := ∀ s, (initMicro k s).phase = .init k'

theorem initSteps_lead : initSteps.IsChain InitStep.LeadsTo := by
  simp only [initSteps, List.isChain_cons_cons, List.isChain_singleton, and_true]
  and_intros <;> exact fun _ => rfl

/-- No micro-step of INIT_HW stops main-line code or pins a choice (R131 to R139). -/
theorem MainPinned.initMicro {s : State} {n : Nat} (h : MainPinned s n) (k : InitStep) : MainPinned (initMicro k s) n := by
  cases k with
  | i3 k | i4 k => cases k <;> exact { h with }
  | i0 | i1 | i2 | i5 | i6 | i7 => exact { h with }

theorem mainStep_init {s : State} {k : InitStep} (hp : s.phase = .init k) : mainStep s = .next (initMicro k s) := by
  simp only [mainStep, hp]

/-- A pinned run at the first of micro-steps that lead to one another takes them all in order. -/
theorem runSteps_initSteps {k : InitStep} {ks : List InitStep} {s : State} (hc : (k :: ks).IsChain InitStep.LeadsTo)
    (h : MainPinned s (k :: ks).length) (hp : s.phase = .init k) :
    runSteps (k :: ks).length s = .next ((k :: ks).foldl initPinned s) := by
  induction ks generalizing s k with
  | nil => exact h.runSteps_succ (mainStep_init (s := s.consume) hp)
  | cons k' ks ih =>
    obtain ⟨hlead, hc⟩ := List.isChain_cons_cons.1 hc
    exact (h.runSteps_succ (mainStep_init (s := s.consume) hp)).trans (ih hc (h.consume.initMicro k) (hlead s.consume))

/-- The fourteen micro-steps in a row, as one update (R132 to R139, R142). -/
theorem foldl_initSteps (s : State) : initSteps.foldl initPinned s = { s with
    schedule := s.schedule.drop 14
    moment := s.moment + 14
    pc := s.pc + 1
    phase := .fetch
    initDone := true
    evflags := 0b000
    clkCfg := some s.params.clkCfg
    clkConfigured := true
    unusedParked := true
    gps := { s.gps with mstate := .disabled, rail := some .off, serRst := some .held, pinmux := some .parked }
    rf := { s.rf with mstate := .disabled, rail := some .off, serRst := some .held, pinmux := some .parked }
    hb := ⟨some 0, some s.params.hbFirst, true, true, false⟩
    sym := ⟨some 0, some s.params.symFirst, true, true, false⟩
    history := s.history ++ [⟨.cpu, .flagsClear 0b111⟩, ⟨.cpu, .clocksSet⟩, ⟨.cpu, .pinsParked⟩,
      ⟨.cpu, .rail .gps .off⟩, ⟨.cpu, .rail .rf .off⟩, ⟨.cpu, .rail .gps .off⟩, ⟨.cpu, .serReset .gps .held⟩,
      ⟨.cpu, .pinmux .gps .parked⟩, ⟨.cpu, .moduleState .gps .disabled⟩, ⟨.cpu, .rail .rf .off⟩,
      ⟨.cpu, .serReset .rf .held⟩, ⟨.cpu, .pinmux .rf .parked⟩, ⟨.cpu, .moduleState .rf .disabled⟩,
      ⟨.cpu, .timerInit .hb⟩, ⟨.cpu, .timerInit .sym⟩] } := by
  simp [initSteps, initPinned, initMicro, configureClocks, configurePins, disableEffect, startTimer, State.emit,
    State.consume, State.withModule, State.moduleUnit, State.withTimer, State.finish, Params.first, ← List.drop_one]

/-- Settles O30: the entry step, then the fourteen micro-steps of `initSteps`. -/
theorem initHwReachesItsFinalState : Obligations.InitHwReachesItsFinalState := by
  intro s hf hm hc hp hd hw
  have h : MainPinned (s.pinMain 15) 15 := mainPinned_pinMain hf hm hc 15
  have hentry : mainStep (s.pinMain 15).consume = .next { (s.pinMain 15).consume with phase := .init .i0 } :=
    (mainStep_of_decode (s := (s.pinMain 15).consume) hp hw specWordsDecode.1).trans (exec_initHw_of_not_done hd)
  calc runSteps 15 (s.pinMain 15)
      = runSteps 14 { (s.pinMain 15).consume with phase := .init .i0 } := h.runSteps_succ hentry
    _ = .next (initSteps.foldl initPinned _) := runSteps_initSteps initSteps_lead { h.consume with } rfl
    _ = _ := by simp [foldl_initSteps, State.pinMain, State.consume, hp]

/-! ### The clock tree -/

/-- What a transition does to the clock configuration and `init_done`: I1 writes the one (R133), I7 the other (R139), a reset both
(R297). -/
inductive ClockCase (s s' : State) : Prop where
  | kept (hclk : s'.clkCfg = s.clkCfg) (hdone : s'.initDone = s.initDone)
  | configured (hp : s.phase = .init .i1) (hclk : s'.clkCfg = some s.params.clkCfg) (hdone : s'.initDone = s.initDone)
  | completed (hclk : s'.clkCfg = s.clkCfg) (hdone : s'.initDone = true)
  | reset (hh : s'.history = s.history ++ [⟨.wdt, .wdtReset⟩])

theorem clockCase_initMicro {k : InitStep} {s : State} (hp : s.phase = .init k) : ClockCase s (initMicro k s) := by
  cases k with
  | i1 => exact .configured hp rfl rfl
  | i7 => exact .completed rfl rfl
  | i3 k | i4 k => cases k <;> exact .kept rfl rfl
  | i0 | i2 | i5 | i6 => exact .kept rfl rfl

theorem MainCase.clockCase {s s' : State} (h : MainCase s s') : ClockCase s s' := by
  cases h with
  | initStep k hp => exact clockCase_initMicro hp
  | disableStep m k => cases m <;> cases k <;> exact .kept rfl rfl
  | enableStep m k => cases m <;> cases k <;> exact .kept rfl rfl
  | moduleEntry m target => cases target <;> exact .kept rfl rfl
  | oscStep k => cases k <;> exact .kept rfl rfl
  | raised | initEntry | feed | sleep | delay | symEntry | flagsRead | flagsClear | flagsXchg | irq | regRead | goTo | halt
  | symStep => exact .kept rfl rfl

theorem OtherCase.clockCase {s s' : State} {c : Choice} (h : OtherCase s c s') : ClockCase s s' := by
  cases h.outsideCase with
  | kept hm h => exact .kept h.clkCfg h.initDone
  | reset d hh => exact .reset hh

theorem step_clockCase {s s' : State} (h : step s = .next s') : ClockCase s.consume s' := by
  obtain ⟨c, -, -, ⟨rfl, hm⟩ | ho⟩ := step_cases h
  · exact hm.clockCase
  · exact ho.clockCase

/-- Settles O28: a second INIT_HW raises, and the cases of a step leave I1, I7 and the reset as the only writers. -/
theorem clocksAreConfiguredOnce : Obligations.ClocksAreConfiguredOnce := by
  refine ⟨fun s hd => exec_initHw_of_done hd, fun s s' hstep => ?_⟩
  cases step_clockCase hstep with
  | kept hclk hdone => exact ⟨.inl hclk, fun h => .inl (hdone.trans h)⟩
  | configured hp hclk hdone => exact ⟨.inr (.inl ⟨hp, hclk⟩), fun h => .inl (hdone.trans h)⟩
  | completed hclk hdone => exact ⟨.inl hclk, fun _ => .inl hdone⟩
  | reset hh => exact ⟨.inr (.inr hh), fun _ => .inr hh⟩

/-! ### Entry steps -/

/-- Settles O27: INIT_HW's entry while `init_done` = 0, then the four entries into a module sequence. -/
theorem sequenceEntriesChangeOnlyThePhase : Obligations.SequenceEntriesChangeOnlyThePhase := by
  intro s
  refine ⟨exec_initHw_of_not_done, fun hd => ⟨?_, ?_, ?_, ?_⟩⟩
  · exact coreCommand_of_done hd .cfgGpsDisabled _
  · exact coreCommand_of_done hd .cfgGpsEnabled _
  · exact coreCommand_of_done hd .cfgRfDisabled _
  · exact coreCommand_of_done hd .cfgRfEnabled _

end Sys2Proof.Machine

/-!
SUPPORT. What keeps the modules' facts: each micro-step of a module sequence adds its own output to those driven before it, and
leaves the other module alone (41_module.md rules R161 to R174, R180, R182).
-/

namespace Sys2Proof.Machine

/-! ### What a sequence has driven -/

/-- What a micro-step of the disable sequence leaves of its module (R161). -/
def disabledAfter (x : ModuleUnit) : DisableStep → Prop
  | .d1 => disabledUpTo x .d2
  | .d2 => disabledUpTo x .d3
  | .d3 => disabledUpTo x .s
  | .s => disabledUpTo x .s ∧ x.mstate = .disabled

/-- What a micro-step of the enable sequence leaves of its module (R165). -/
def enabledAfter (c : SerCfg) (x : ModuleUnit) : EnableStep → Prop
  | .e1 => enabledUpTo c x .e2
  | .e2 => enabledUpTo c x .e3
  | .e3 => enabledUpTo c x .e4
  | .e4 => enabledUpTo c x .s
  | .s => enabledUpTo c x .s ∧ x.mstate = .enabled

theorem disabledAfter_disableEffect {s : State} {m : ModuleId} {k : DisableStep} (h : disabledUpTo (s.moduleUnit m) k) :
    disabledAfter ((disableEffect m k s).moduleUnit m) k := by
  cases k with
  | d1 => cases m <;> rfl
  | d2 => cases m <;> exact ⟨h, rfl⟩
  | d3 =>
    obtain ⟨hrail, hrst⟩ := h
    cases m <;> exact ⟨hrail, hrst, rfl⟩
  | s => cases m <;> exact ⟨h, rfl⟩

theorem enabledAfter_enableEffect {s : State} {m : ModuleId} {k : EnableStep}
    (h : enabledUpTo (s.params.serialCfg m) (s.moduleUnit m) k) :
    enabledAfter (s.params.serialCfg m) ((enableEffect m k s).moduleUnit m) k := by
  cases k with
  | e1 => cases m <;> rfl
  | e2 => cases m <;> exact ⟨h, rfl, rfl⟩
  | e3 =>
    obtain ⟨hmux, -, hcfg⟩ := h
    cases m <;> exact ⟨hmux, rfl, hcfg⟩
  | e4 =>
    obtain ⟨hmux, hrst, hcfg⟩ := h
    cases m <;> exact ⟨hmux, hrst, hcfg, rfl⟩
  | s => cases m <;> exact ⟨h, rfl⟩

theorem disableEffect_other {m m' : ModuleId} (hm : m' ≠ m) (k : DisableStep) (s : State) :
    (disableEffect m k s).moduleUnit m' = s.moduleUnit m' := by
  cases k <;> exact moduleUnit_withModule_other s _ hm

theorem enableEffect_other {m m' : ModuleId} (hm : m' ≠ m) (k : EnableStep) (s : State) :
    (enableEffect m k s).moduleUnit m' = s.moduleUnit m' := by
  cases k <;> exact moduleUnit_withModule_other s _ hm

/-- The outputs of a whole disable sequence are those Disabled names: a held interface shows no configuration (R180, D23). -/
theorem settled_of_disabled {p : Params} {m : ModuleId} {x : ModuleUnit} (h : disabledAfter x .s) : settled p m x := by
  obtain ⟨⟨hrail, hrst, hmux⟩, hstate⟩ := h
  simp [settled, cfgObs, targetObs, hrail, hrst, hmux, hstate]

theorem settled_of_enabled {p : Params} {m : ModuleId} {x : ModuleUnit} (h : enabledAfter (p.serialCfg m) x .s) :
    settled p m x := by
  obtain ⟨⟨hmux, hrst, hcfg, hrail⟩, hstate⟩ := h
  simp [settled, cfgObs, targetObs, hrail, hrst, hmux, hcfg, hstate]

/-! ### The facts at each phase -/

/-- Module `m` is inside a sequence of its own, `own` says how far, and the other module is settled. -/
def Driving (s : State) (m : ModuleId) (own : ModuleUnit → Prop) : Prop :=
  own (s.moduleUnit m) ∧ ∀ m', m' ≠ m → settled s.params m' (s.moduleUnit m')

theorem forall_module_ite_iff {P Q : ModuleId → Prop} {m : ModuleId} :
    (∀ m', if m = m' then P m' else Q m') ↔ P m ∧ ∀ m', m' ≠ m → Q m' := by
  constructor
  · intro h
    exact ⟨by simpa using h m, fun m' hm => by simpa [hm.symm] using h m'⟩
  · rintro ⟨hown, hother⟩ m'
    split
    · subst m'
      exact hown
    · exact hother m' (Ne.symm ‹_›)

theorem moduleInv_disable_iff {s : State} {m : ModuleId} {k : DisableStep} (hp : s.phase = .disable m k) :
    ModuleInv s ↔ Driving s m (disabledUpTo · k) := by
  simp only [ModuleInv, moduleFacts, hp, forall_module_ite_iff, Driving]

theorem moduleInv_enable_iff {s : State} {m : ModuleId} {k : EnableStep} (hp : s.phase = .enable m k) :
    ModuleInv s ↔ Driving s m (enabledUpTo (s.params.serialCfg m) · k) := by
  simp only [ModuleInv, moduleFacts, hp, forall_module_ite_iff, Driving]

theorem moduleInv_rfOsc_iff {s : State} {k : OscStep} (hp : s.phase = .rfOsc k) :
    ModuleInv s ↔ Driving s .rf (enabledUpTo (s.params.serialCfg .rf) · .s) := by
  simp only [ModuleInv, moduleFacts, hp, eq_comm (b := ModuleId.rf), forall_module_ite_iff, Driving]

theorem moduleInv_symReset_iff {s : State} (hp : s.phase = .symReset) :
    ModuleInv s ↔ ∀ m, settled s.params m (s.moduleUnit m) := by
  simp only [ModuleInv, moduleFacts, hp]

theorem moduleInv_fetch_iff {s : State} (hp : s.phase = .fetch) (hd : s.initDone = true) :
    ModuleInv s ↔ ∀ m, settled s.params m (s.moduleUnit m) := by
  simp only [ModuleInv, moduleFacts, hp, hd, forall_const]

/-- I3 speaks of GPS alone, as far as its disable sequence has come (R135). -/
theorem moduleInv_i3_iff {s : State} {k : DisableStep} (hp : s.phase = .init (.i3 k)) :
    ModuleInv s ↔ disabledUpTo (s.moduleUnit .gps) k := by
  simp only [ModuleInv, moduleFacts, hp]
  exact ⟨fun h => h .gps, fun h m => by
    cases m with
    | gps => exact h
    | rf => trivial⟩

/-- I4 keeps GPS Disabled and speaks of RF as far as its disable sequence has come (R136). -/
theorem moduleInv_i4_iff {s : State} {k : DisableStep} (hp : s.phase = .init (.i4 k)) :
    ModuleInv s ↔ (settled s.params .gps (s.moduleUnit .gps) ∧ (s.moduleUnit .gps).mstate = .disabled) ∧
      disabledUpTo (s.moduleUnit .rf) k := by
  simp only [ModuleInv, moduleFacts, hp]
  exact ⟨fun h => ⟨h .gps, h .rf⟩, fun h m => by
    cases m with
    | gps => exact h.1
    | rf => exact h.2⟩

/-! ### The micro-steps -/

/-- At a command boundary settled modules are all the invariant asks for (R180). -/
theorem moduleInv_of_settled {s : State} (hp : s.phase = .fetch) (h : ∀ m, settled s.params m (s.moduleUnit m)) :
    ModuleInv s := by
  simp only [ModuleInv, moduleFacts, hp]
  exact fun m _ => h m

theorem Driving.settled {s : State} {m : ModuleId} {own : ModuleUnit → Prop} (h : Driving s m own)
    (hown : own (s.moduleUnit m) → settled s.params m (s.moduleUnit m)) : ∀ m', settled s.params m' (s.moduleUnit m') := by
  obtain ⟨hm, hother⟩ := h
  intro m'
  by_cases h : m' = m
  · exact h ▸ hown hm
  · exact hother m' h

theorem Driving.disableEffect {s : State} {m : ModuleId} {k : DisableStep} (h : Driving s m (disabledUpTo · k)) :
    Driving (disableEffect m k s) m (disabledAfter · k) := by
  obtain ⟨hown, hother⟩ := h
  refine ⟨disabledAfter_disableEffect hown, fun m' hm => ?_⟩
  rw [disableEffect_other hm, (quiet_disableEffect m k s).params]
  exact hother m' hm

theorem Driving.enableEffect {s : State} {m : ModuleId} {k : EnableStep}
    (h : Driving s m (enabledUpTo (s.params.serialCfg m) · k)) :
    Driving (enableEffect m k s) m (enabledAfter (s.params.serialCfg m) · k) := by
  obtain ⟨hown, hother⟩ := h
  refine ⟨enabledAfter_enableEffect hown, fun m' hm => ?_⟩
  rw [enableEffect_other hm, (quiet_enableEffect m k s).params]
  exact hother m' hm

theorem ModuleInv.disableMicro {s : State} {m : ModuleId} {k : DisableStep} (h : ModuleInv s)
    (hp : s.phase = .disable m k) : ModuleInv (disableMicro m k s) := by
  have driven := ((moduleInv_disable_iff hp).1 h).disableEffect
  cases k with
  | d1 | d2 | d3 => exact Iff.mpr (moduleInv_disable_iff rfl) driven
  | s => exact moduleInv_of_settled rfl (driven.settled settled_of_disabled)

theorem ModuleInv.enableMicro {s : State} {m : ModuleId} {k : EnableStep} (h : ModuleInv s)
    (hp : s.phase = .enable m k) : ModuleInv (enableMicro m k s) := by
  have driven := ((moduleInv_enable_iff hp).1 h).enableEffect
  rw [← (quiet_enableEffect m k s).params] at driven
  cases k with
  | e1 | e2 | e3 => exact Iff.mpr (moduleInv_enable_iff rfl) driven
  | e4 =>
    cases m with
    | gps => exact Iff.mpr (moduleInv_enable_iff rfl) driven
    | rf => exact Iff.mpr (moduleInv_rfOsc_iff rfl) driven
  | s => exact moduleInv_of_settled rfl (driven.settled settled_of_enabled)

/-- The oscillator loop leaves both modules alone, and the outputs it found are those step S expects (R170 to R173). -/
theorem ModuleInv.oscMicro {s : State} {k : OscStep} (h : ModuleInv s) (hp : s.phase = .rfOsc k) :
    ModuleInv (oscMicro k s) := by
  have driven := (moduleInv_rfOsc_iff hp).1 h
  cases k with
  | o1 | o2 => exact Iff.mpr (moduleInv_rfOsc_iff rfl) driven
  | o3 =>
    cases hf : s.oscFault
    · exact (moduleInv_rfOsc_iff (k := .o4) (by simp [Machine.oscMicro, hf])).2 driven
    · exact (moduleInv_rfOsc_iff (k := .o2) (by simp [Machine.oscMicro, hf])).2 driven
  | o4 => exact Iff.mpr (moduleInv_enable_iff rfl) driven

/-- Past I4 both modules are Disabled, and no micro-step of INIT_HW touches them again. -/
theorem ModuleInv.afterI4 {s : State} {k : InitStep} (h : ModuleInv s) (hp : s.phase = .init k)
    (hk : k ∈ [InitStep.i5, .i6, .i7]) (m : ModuleId) :
    settled s.params m (s.moduleUnit m) ∧ (s.moduleUnit m).mstate = .disabled := by
  have hm := h m
  simp only [List.mem_cons, List.not_mem_nil, or_false] at hk
  obtain rfl | rfl | rfl := hk <;> simpa only [moduleFacts, hp] using hm

/-- INIT_HW leaves both modules Disabled, GPS first (R135, R136). -/
theorem ModuleInv.initMicro {s : State} {k : InitStep} (h : ModuleInv s) (hp : s.phase = .init k) :
    ModuleInv (initMicro k s) := by
  cases k with
  | i0 | i1 => exact fun _ => trivial
  | i2 => exact Iff.mpr (moduleInv_i3_iff rfl) trivial
  | i3 k =>
    have driven := disabledAfter_disableEffect ((moduleInv_i3_iff hp).1 h)
    cases k with
    | d1 | d2 | d3 => exact Iff.mpr (moduleInv_i3_iff rfl) driven
    | s => exact Iff.mpr (moduleInv_i4_iff rfl) ⟨⟨settled_of_disabled driven, driven.2⟩, trivial⟩
  | i4 k =>
    obtain ⟨hgps, hrf⟩ := (moduleInv_i4_iff hp).1 h
    have driven := disabledAfter_disableEffect hrf
    cases k with
    | d1 | d2 | d3 => exact Iff.mpr (moduleInv_i4_iff rfl) ⟨hgps, driven⟩
    | s =>
      intro m
      cases m with
      | gps => exact hgps
      | rf => exact ⟨settled_of_disabled driven, driven.2⟩
  | i5 | i6 => exact h.afterI4 hp (by simp)
  | i7 => exact moduleInv_of_settled rfl fun m => (h.afterI4 hp (by simp) m).1

/-! ### Every transition -/

theorem MainCase.moduleInv {s s' : State} (hc : MainCase s s') (h : ModuleInv s) : ModuleInv s' := by
  cases hc with
  | initEntry => exact fun _ => trivial
  | moduleEntry m target hp hpc hd =>
    have hsettled := (moduleInv_fetch_iff hp hd).1 h
    cases target with
    | disabled => exact Iff.mpr (moduleInv_disable_iff rfl) ⟨trivial, fun m' _ => hsettled m'⟩
    | enabled => exact Iff.mpr (moduleInv_enable_iff rfl) ⟨trivial, fun m' _ => hsettled m'⟩
  | symEntry hp hpc hd => exact Iff.mpr (moduleInv_symReset_iff rfl) ((moduleInv_fetch_iff hp hd).1 h)
  | symStep hp => exact moduleInv_of_settled rfl ((moduleInv_symReset_iff hp).1 h)
  | initStep k hp => exact h.initMicro hp
  | disableStep m k hp => exact h.disableMicro hp
  | enableStep m k hp => exact h.enableMicro hp
  | oscStep k hp => exact h.oscMicro hp
  | raised | feed | sleep | delay | flagsRead | flagsClear | flagsXchg | irq | regRead | goTo | halt => exact h

theorem OtherCase.moduleInv {s s' : State} {c : Choice} (hc : OtherCase s c s') (h : ModuleInv s) : ModuleInv s' := by
  cases hc with
  | wdtReset d => exact fun _ hd => nomatch hd
  | nmiEntry | nmiIdle | nmiClear | nmiWait | nmiRetry | nmiExit | isrHb | isrHbWake | isrSym | isrExt | isrExtWake | tickHb
  | tickSym | wdtCount | oscBad | oscGood | extReq => exact h

/-- Settles O46: no micro-step but a module's own drives its outputs, each in the order of its sequence. -/
theorem everyStepKeepsModuleConvergence : Obligations.EveryStepKeepsModuleConvergence := by
  intro s s' _ h hstep
  have hconsumed : ModuleInv s.consume := h
  obtain ⟨c, -, -, ⟨-, hc⟩ | hc⟩ := step_cases hstep
  · exact hc.moduleInv hconsumed
  · exact hc.moduleInv hconsumed

end Sys2Proof.Machine

/-!
SUPPORT. What keeps the arming order of the oscillator fault interrupt: only O4 arms, and only the check that leads to O4 is the last
main-line fault event there (41_module.md rules R170 to R173, R181).
-/

namespace Sys2Proof.Machine

/-! ### Histories -/

/-- A new record has to be checked for itself alone. -/
theorem armedAfterClearCheck_append_singleton {h : List Record} {r : Record} :
    armedAfterClearCheck (h ++ [r]) ↔ armedAfterClearCheck h ∧
      (r.event = .faultIeSet → lastMainFaultEvent h = some (.faultCheck .main false)) := by
  constructor
  · intro harm
    exact ⟨fun before x after hsplit => harm before x (after ++ [r]) (by simp [hsplit]), harm h r [] rfl⟩
  · rintro ⟨harm, hnew⟩ before x after hsplit hx
    obtain rfl | ⟨after, y, rfl⟩ := after.eq_nil_or_concat'
    · obtain ⟨rfl, hr⟩ := List.append_inj' hsplit rfl
      obtain rfl : r = x := by simpa using hr
      exact hnew hx
    · rw [← List.cons_append, ← List.append_assoc] at hsplit
      obtain ⟨rfl, -⟩ := List.append_inj' hsplit rfl
      exact harm before x after rfl hx

/-- Records that arm nothing may follow any history. -/
theorem armedAfterClearCheck_append {h new : List Record} (harm : armedAfterClearCheck h)
    (hnew : ∀ r ∈ new, r.event ≠ .faultIeSet) : armedAfterClearCheck (h ++ new) := by
  induction new generalizing h with
  | nil => simpa using harm
  | cons r new ih =>
    obtain ⟨hr, hrest⟩ := List.forall_mem_cons.1 hnew
    rw [List.append_cons]
    exact ih (armedAfterClearCheck_append_singleton.2 ⟨harm, fun he => absurd he hr⟩) hrest

/-- A record that neither arms nor counts as a main-line fault event (R181). -/
def Record.Unseen (r : Record) : Prop := r.event ≠ .faultIeSet ∧ ∀ last, lastMainFaultStep last r = last

theorem lastMainFaultEvent_append_unseen {h new : List Record} (hnew : ∀ r ∈ new, r.Unseen) :
    lastMainFaultEvent (h ++ new) = lastMainFaultEvent h := by
  rw [lastMainFaultEvent, List.foldl_append, ← lastMainFaultEvent]
  induction new with
  | nil => rfl
  | cons r new ih =>
    obtain ⟨⟨-, hr⟩, hrest⟩ := List.forall_mem_cons.1 hnew
    rw [List.foldl_cons, hr, ih hrest]

theorem lastMainFaultEvent_append_check (h : List Record) (v : Bool) :
    lastMainFaultEvent (h ++ [⟨.cpu, .faultCheck .main v⟩]) = some (.faultCheck .main v) := by
  simp [lastMainFaultEvent, lastMainFaultStep]

/-! ### What a transition records -/

/-- Away from O4 a step that arms nothing keeps the invariant. -/
theorem ArmingInv.unarmed {s s' : State} (h : ArmingInv s) (new : List Record) (hnew : ∀ r ∈ new, r.event ≠ .faultIeSet)
    (hh : s'.history = s.history ++ new) (hp : s'.phase ≠ .rfOsc .o4) : ArmingInv s' := by
  obtain ⟨harm, -⟩ := h
  exact ⟨hh ▸ armedAfterClearCheck_append harm hnew, fun hp' => absurd hp' hp⟩

/-- A step at any phase keeps the invariant where its records are none of R181's. -/
theorem ArmingInv.unseen {s s' : State} (h : ArmingInv s) (new : List Record) (hnew : ∀ r ∈ new, r.Unseen)
    (hh : s'.history = s.history ++ new) (hp : s'.phase = s.phase) : ArmingInv s' := by
  obtain ⟨harm, hlast⟩ := h
  constructor
  · exact hh ▸ armedAfterClearCheck_append harm fun r hr => (hnew r hr).1
  · rw [hh, lastMainFaultEvent_append_unseen hnew, hp]
    exact hlast

theorem ArmingInv.disableMicro {s : State} (h : ArmingInv s) (m : ModuleId) (k : DisableStep) :
    ArmingInv (disableMicro m k s) := by
  cases m <;> cases k <;> exact h.unarmed [_] (by simp) rfl nofun

theorem ArmingInv.enableMicro {s : State} (h : ArmingInv s) (m : ModuleId) (k : EnableStep) :
    ArmingInv (enableMicro m k s) := by
  cases k with
  | e2 => cases m <;> exact h.unarmed _ (by simp) (List.append_assoc ..) nofun
  | e1 | e3 | e4 | s => cases m <;> exact h.unarmed [_] (by simp) rfl nofun

theorem ArmingInv.initMicro {s : State} (h : ArmingInv s) (k : InitStep) : ArmingInv (initMicro k s) := by
  cases k with
  | i2 => exact initMicro_i2 s ▸ h.unarmed _ (by simp) rfl nofun
  | i3 k | i4 k => cases k <;> exact h.unarmed [_] (by simp) rfl nofun
  | i0 | i1 | i5 | i6 => exact h.unarmed [_] (by simp) rfl nofun
  | i7 => exact h.unarmed [] (by simp) (List.append_nil _).symm nofun

/-- O3 moves to O4 only from a check that reads clear, and O4 arms right after it (R172, R173). -/
theorem ArmingInv.oscMicro {s : State} {k : OscStep} (h : ArmingInv s) (hp : s.phase = .rfOsc k) :
    ArmingInv (oscMicro k s) := by
  cases k with
  | o1 | o2 => exact h.unarmed [_] (by simp) rfl nofun
  | o3 =>
    cases hf : s.oscFault with
    | true => exact h.unarmed [_] (by simp) rfl (by simp [Machine.oscMicro, hf])
    | false =>
      obtain ⟨harm, -⟩ := h
      exact ⟨armedAfterClearCheck_append (new := [_]) harm (by simp),
        fun _ => hf ▸ lastMainFaultEvent_append_check s.history s.oscFault⟩
  | o4 =>
    obtain ⟨harm, hlast⟩ := h
    exact ⟨armedAfterClearCheck_append_singleton.2 ⟨harm, fun _ => hlast hp⟩, nofun⟩

/-! ### Every transition -/

theorem MainCase.armingInv {s s' : State} (hc : MainCase s s') (h : ArmingInv s) : ArmingInv s' := by
  cases hc with
  | initStep k => exact h.initMicro k
  | disableStep m k => exact h.disableMicro m k
  | enableStep m k => exact h.enableMicro m k
  | oscStep k hp => exact h.oscMicro hp
  | moduleEntry m target => cases target <;> exact h.unarmed [] (by simp) (List.append_nil _).symm nofun
  | initEntry => exact h.unarmed [] (by simp) (List.append_nil _).symm nofun
  | symEntry | symStep => exact h.unarmed [_] (by simp) rfl nofun
  | raised | feed | sleep | delay | flagsRead | flagsClear | flagsXchg | halt =>
    exact h.unseen [_] (by simp [Record.Unseen, lastMainFaultStep]) rfl rfl
  | irq | regRead | goTo => exact h

theorem OtherCase.armingInv {s s' : State} {c : Choice} (hc : OtherCase s c s') (h : ArmingInv s) : ArmingInv s' := by
  cases hc with
  | wdtReset d => exact h.unarmed [_] (by simp) rfl nofun
  | nmiEntry | nmiClear | nmiRetry | nmiExit | isrHb | isrHbWake | isrSym | isrExt | isrExtWake =>
    exact h.unseen _ (by simp [Record.Unseen, lastMainFaultStep]) rfl rfl
  | nmiIdle | nmiWait | tickHb | tickSym | wdtCount | oscBad | oscGood | extReq => exact h

/-- Settles O49: a step arms only at O4, and only the check of O3 that read clear leads there. -/
theorem everyStepKeepsArmingChecked : Obligations.EveryStepKeepsArmingChecked := by
  intro s s' h hstep
  have hconsumed : ArmingInv s.consume := h
  obtain ⟨c, -, -, ⟨-, hc⟩ | hc⟩ := step_cases hstep
  · exact hc.armingInv hconsumed
  · exact hc.armingInv hconsumed

end Sys2Proof.Machine

/-!
SUPPORT. The module sequences with no other step between: runs pinned to main-line code through the phases of one command, and the
update each whole sequence makes (41_module.md rules R160 to R179).
-/

namespace Sys2Proof.Machine

/-! ### Pinned runs through the phases of a command -/

/-- The micro-step of main-line code at each phase inside a command; at a command boundary there is none. -/
def Phase.micro : Phase → State → State
  | .fetch, s => s
  | .init k, s => initMicro k s
  | .disable m k, s => disableMicro m k s
  | .enable m k, s => enableMicro m k s
  | .rfOsc k, s => oscMicro k s
  | .symReset, s => symResetW2 s

theorem mainStep_eq_micro {s : State} {p : Phase} (hp : s.phase = p) (hf : p ≠ .fetch) :
    mainStep s = .next (p.micro s) := by
  cases p with
  | fetch => exact absurd rfl hf
  | init | disable | enable | rfOsc | symReset => simp only [mainStep, hp, Phase.micro]

/-- Main-line code taken by itself goes from `s` through these phases, each inside a command, to `t`. -/
def Through : List Phase → State → State → Prop
  | [], s, t => t = s
  | p :: ps, s, t => s.phase = p ∧ p ≠ .fetch ∧ Through ps (p.micro s.consume) t

theorem Through.append {ps qs : List Phase} {s t u : State} (h : Through ps s t) (k : Through qs t u) :
    Through (ps ++ qs) s u := by
  induction ps generalizing s with
  | nil => exact h ▸ k
  | cons p ps ih =>
    obtain ⟨hp, hf, hrest⟩ := h
    exact ⟨hp, hf, ih hrest⟩

/-- No micro-step stops main-line code or pins a choice. -/
theorem MainPinned.micro {s : State} {n : Nat} (h : MainPinned s n) (p : Phase) : MainPinned (p.micro s) n := by
  cases p with
  | fetch => exact h
  | init k => exact h.initMicro k
  | disable m k | enable m k => cases m <;> cases k <;> exact { h with }
  | rfOsc k => cases k <;> exact { h with }
  | symReset => exact { h with }

/-- A pinned run of as many steps as there are phases goes through them. -/
theorem runSteps_through {ps : List Phase} {n : Nat} {s t : State} (h : MainPinned s n) (hn : ps.length = n)
    (ht : Through ps s t) : runSteps n s = .next t := by
  subst hn
  induction ps generalizing s with
  | nil => exact ht ▸ rfl
  | cons p ps ih =>
    obtain ⟨hp, hf, hrest⟩ := ht
    exact (h.runSteps_succ (mainStep_eq_micro (s := s.consume) hp hf)).trans (ih hrest (h.consume.micro p))

/-! ### Entering a sequence -/

/-- CFG_MODULE m, v as one of its four commands (R175 to R178). -/
def cfgModule : ModuleId → ModState → Instr
  | .gps, .disabled => .cfgGpsDisabled
  | .gps, .enabled => .cfgGpsEnabled
  | .rf, .disabled => .cfgRfDisabled
  | .rf, .enabled => .cfgRfEnabled

theorem cfgModule_wellFormed (m : ModuleId) (v : ModState) : (cfgModule m v).wellFormed = true := by
  cases m <;> cases v <;> rfl

theorem exec_cfgModule {s : State} (hd : s.initDone = true) (m : ModuleId) (v : ModState) :
    exec (cfgModule m v) s = .next (enterModuleSequence m v s) := by
  cases m <;> cases v <;> exact coreCommand_of_done hd _ _

/-- Main-line code of an initialised machine is about to fetch the command `i`. -/
structure AtCommand (s : State) (i : Instr) : Prop where
  fault : s.fault = none
  mode : s.mode = .active
  ctx : s.ctx = .main
  phase : s.phase = .fetch
  done : s.initDone = true
  word : s.program[s.pc]? = some (encode i)

/-- The state at the first micro-step of a sequence, with `n` more steps pinned to main-line code (R160). -/
def sequenceStart (m : ModuleId) (v : ModState) (n : Nat) (s : State) : State :=
  enterModuleSequence m v { s with schedule := List.replicate n .main, moment := s.moment + 1 }

/-- A pinned run at a CFG_MODULE takes the entry step and then the micro-steps of its sequence. -/
theorem AtCommand.runSteps_sequence {s t : State} {m : ModuleId} {v : ModState} (h : AtCommand s (cfgModule m v))
    {ps : List Phase} (ht : Through ps (sequenceStart m v ps.length s) t) :
    runSteps (ps.length + 1) (s.pinMain (ps.length + 1)) = .next t := by
  have pinned : MainPinned (s.pinMain (ps.length + 1)) (ps.length + 1) := mainPinned_pinMain h.fault h.mode h.ctx _
  have entry : mainStep (s.pinMain (ps.length + 1)).consume = .next (sequenceStart m v ps.length s) :=
    calc mainStep (s.pinMain (ps.length + 1)).consume
        = exec (cfgModule m v) (s.pinMain (ps.length + 1)).consume :=
          mainStep_of_decode h.phase h.word (decode_encode (cfgModule_wellFormed m v))
      _ = .next (sequenceStart m v ps.length s) := exec_cfgModule (s := (s.pinMain (ps.length + 1)).consume) h.done m v
  have started : MainPinned (sequenceStart m v ps.length s) ps.length := by
    cases v <;> exact { pinned.consume with }
  exact (pinned.runSteps_succ entry).trans (runSteps_through started rfl ht)

/-! ### The parts of the sequences, each as one update -/

/-- D1, D2, D3 and S power the rail down, hold the interface, park the pins and record the state (R161 to R164, R174). -/
theorem through_disable {s : State} {m : ModuleId} (hp : s.phase = .disable m .d1) :
    Through [.disable m .d1, .disable m .d2, .disable m .d3, .disable m .s] s (State.withModule { s with
      schedule := s.schedule.drop 4
      moment := s.moment + 4
      pc := s.pc + 1
      phase := .fetch
      history := s.history ++ [⟨.cpu, .rail m .off⟩, ⟨.cpu, .serReset m .held⟩, ⟨.cpu, .pinmux m .parked⟩,
        ⟨.cpu, .moduleState m .disabled⟩] } m
      { s.moduleUnit m with mstate := .disabled, rail := some .off, serRst := some .held, pinmux := some .parked }) := by
  cases m <;> simp [Through, hp, Phase.micro, disableMicro, disableEffect, State.consume, State.emit, State.withModule,
    State.moduleUnit, State.finish, ← List.drop_one]

/-- E1 to E4 connect the pins, configure and release the interface and power the rail up (R165 to R169, R179). -/
theorem through_powerUp {s : State} {m : ModuleId} (hp : s.phase = .enable m .e1) :
    Through [.enable m .e1, .enable m .e2, .enable m .e3, .enable m .e4] s (State.withModule { s with
      schedule := s.schedule.drop 4
      moment := s.moment + 4
      phase := afterE4 m
      history := s.history ++ [⟨.cpu, .pinmux m .serial⟩, ⟨.cpu, .serReset m .held⟩,
        ⟨.cpu, .serConfig m (s.params.serialCfg m).clk (s.params.serialCfg m).setting.br
          (s.params.serialCfg m).setting.modulation⟩,
        ⟨.cpu, .serReset m .released⟩, ⟨.cpu, .rail m .on⟩] } m
      { s.moduleUnit m with
        rail := some .on
        pinmux := some .serial
        serRst := some .released
        serCfg := some (s.params.serialCfg m) }) := by
  cases m <;> simp [Through, hp, Phase.micro, enableMicro, enableEffect, State.consume, State.emit, State.withModule,
    State.moduleUnit, ← List.drop_one]

/-- S of the enable sequence records the state and ends the command (R174). -/
theorem through_record {s : State} {m : ModuleId} (hp : s.phase = .enable m .s) :
    Through [.enable m .s] s (State.withModule { s with
      schedule := s.schedule.tail
      moment := s.moment + 1
      pc := s.pc + 1
      phase := .fetch
      history := s.history ++ [⟨.cpu, .moduleState m .enabled⟩] } m { s.moduleUnit m with mstate := .enabled }) := by
  cases m <;> exact ⟨hp, nofun, rfl⟩

/-- With a good oscillator one pass of the loop starts it, clears the flag, reads it clear and arms the interrupt (R170 to R173,
R292). -/
theorem through_oscPass {s : State} (hp : s.phase = .rfOsc .o1) (ho : s.oscOk = true) :
    Through [.rfOsc .o1, .rfOsc .o2, .rfOsc .o3, .rfOsc .o4] s { s with
      schedule := s.schedule.drop 4
      moment := s.moment + 4
      phase := .enable .rf .s
      xoscOn := true
      oscFault := false
      faultIe := true
      history := s.history ++ [⟨.cpu, .xoscStart⟩, ⟨.cpu, .faultClear .main⟩, ⟨.cpu, .faultCheck .main false⟩,
        ⟨.cpu, .faultIeSet⟩] } := by
  simp [Through, hp, ho, Phase.micro, oscMicro, State.clearOscFault, State.consume, State.emit, ← List.drop_one]

/-- With a dead oscillator O2 and O3 come back to O2 with nothing changed but the history (R171, R172, R292). -/
theorem through_oscRetry {s : State} (hp : s.phase = .rfOsc .o2) (ho : s.oscOk = false) (hf : s.oscFault = true) :
    Through [.rfOsc .o2, .rfOsc .o3] s { s with
      schedule := s.schedule.drop 2
      moment := s.moment + 2
      history := s.history ++ [⟨.cpu, .faultClear .main⟩, ⟨.cpu, .faultCheck .main true⟩] } := by
  simp [Through, hp, ho, hf, Phase.micro, oscMicro, State.clearOscFault, State.consume, State.emit, ← List.drop_one]

theorem through_oscRetries (n : Nat) {s : State} (hp : s.phase = .rfOsc .o2) (ho : s.oscOk = false)
    (hf : s.oscFault = true) :
    Through (List.replicate n [.rfOsc .o2, .rfOsc .o3]).flatten s { s with
      schedule := s.schedule.drop (2 * n)
      moment := s.moment + 2 * n
      history := s.history
        ++ (List.replicate n [⟨.cpu, .faultClear .main⟩, ⟨.cpu, .faultCheck .main true⟩]).flatten } := by
  induction n generalizing s with
  | zero => simp [Through]
  | succ n ih =>
    have rest := (through_oscRetry hp ho hf).append (ih hp ho hf)
    simpa [List.replicate_succ, Nat.mul_succ, add_comm, add_assoc] using rest

/-! ### The whole sequences -/

/-- Settles O31: the entry step, then D1, D2, D3 and S. -/
theorem disableSequenceReachesItsFinalState : Obligations.DisableSequenceReachesItsFinalState := by
  intro s m hf hm hc hp hd hw
  have h : AtCommand s (cfgModule m .disabled) := ⟨hf, hm, hc, hp, hd, by cases m <;> exact hw⟩
  refine (h.runSteps_sequence (through_disable rfl)).trans ?_
  simp [sequenceStart, enterModuleSequence, hp, State.moduleUnit]

/-- Settles O32: the entry step, E1 to E4, and S. -/
theorem enableGpsReachesItsFinalState : Obligations.EnableGpsReachesItsFinalState := by
  intro s hf hm hc hp hd hw
  have h : AtCommand s (cfgModule .gps .enabled) := ⟨hf, hm, hc, hp, hd, hw⟩
  refine ⟨s.params.serialCfg .gps, rfl, rfl, ?_⟩
  have powered := through_powerUp (s := sequenceStart .gps .enabled 5 s) (m := .gps) rfl
  refine (h.runSteps_sequence (powered.append (through_record rfl))).trans ?_
  simp [sequenceStart, enterModuleSequence, State.withModule, State.moduleUnit, hp]

/-- Settles O33: the entry step, E1 to E4, one pass of the oscillator loop, and S. -/
theorem enableRfReachesItsFinalState : Obligations.EnableRfReachesItsFinalState := by
  intro s hf hm hc hp hd ho hw
  have h : AtCommand s (cfgModule .rf .enabled) := ⟨hf, hm, hc, hp, hd, hw⟩
  refine ⟨s.params.serialCfg .rf, rfl, rfl, ?_⟩
  have powered := through_powerUp (s := sequenceStart .rf .enabled 9 s) (m := .rf) rfl
  have armed := powered.append (through_oscPass rfl ho)
  refine (h.runSteps_sequence (armed.append (through_record rfl))).trans ?_
  simp [sequenceStart, enterModuleSequence, State.withModule, State.moduleUnit, hp]

/-- Settles O34: `n` passes of the loop, each of which comes back to O2. -/
theorem rfOscillatorLoopHasNoBound : Obligations.RfOscillatorLoopHasNoBound := by
  intro n s hf hm hc hp ho hof
  have retried := through_oscRetries n (s := s.pinMain (2 * n)) hp ho hof
  refine (runSteps_through (mainPinned_pinMain hf hm hc (2 * n)) (by simp [mul_comm]) retried).trans ?_
  simp [State.pinMain]

end Sys2Proof.Machine

/-!
SUPPORT. What ticks, handlers and RESET_SYM do to the two timers, and what keeps each compare register the value its ledger gives: a
record either leaves the ledger alone or comes with the write of the compare register it stands for (42_timers.md rules R190 to
R205).
-/

namespace Sys2Proof

theorem Params.width_le {p : Params} (h : p.valid = true) (t : TimerId) : p.width t ≤ 32 := by
  obtain ⟨hHb, hSym, -⟩ := Params.valid_bounds h
  cases t <;> assumption

theorem Params.first_lt {p : Params} (h : p.valid = true) (t : TimerId) : (p.first t).toNat < 2 ^ p.width t := by
  obtain ⟨-, -, hHb, hSym, -⟩ := Params.valid_bounds h
  cases t <;> assumption

end Sys2Proof

namespace Sys2Proof.Machine

/-! ### Ticks, handlers and RESET_SYM -/

theorem coreCommand_of_not_done {s : State} (hd : s.initDone = false) (i : Instr) (body : State → State) :
    coreCommand i s body = .next (s.raise .notInitialised (some (encode i))) := by
  simp only [coreCommand, hd, Bool.false_eq_true, if_false]

/-- Settles O29: W1 is the body of a core command, W2 the one micro-step after it. -/
theorem resetSymWritesCompareThenCounter : Obligations.ResetSymWritesCompareThenCounter := by
  refine ⟨decode_encode (i := .resetSym) rfl, fun s => ⟨fun hd => ?_, fun hd => ?_, fun hp => ?_⟩⟩
  · exact coreCommand_of_done hd .resetSym symResetW1
  · exact coreCommand_of_not_done hd .resetSym symResetW1
  · exact mainStep_eq_micro hp nofun

/-- A tick of a timer whose registers are known answers (R190). -/
theorem tickTimer_of_known {t : TimerId} {s : State} {c r : Word} (hc : (s.timer t).cnt = some c)
    (hr : (s.timer t).ccr = some r) :
    tickTimer t s = .next (s.withTimer t { s.timer t with
      cnt := some (addW (s.params.width t) c 1)
      pend := (s.timer t).pend || addW (s.params.width t) c 1 == r }) := by
  simp only [tickTimer, hc, hr]

/-- Settles O35: a tick needs only a running timer and a live machine, and both timers tick alike. -/
theorem tickCountsAndMatches : Obligations.TickCountsAndMatches := by
  intro s
  refine ⟨?hbEnabled, ?symEnabled, fun c r => ⟨?hbTick, ?symTick⟩⟩
  case hbEnabled | symEnabled => simp only [enabled, Bool.and_eq_true, alive_iff, and_comm]
  case hbTick => exact fun hc hr => tickTimer_of_known (t := .hb) hc hr
  case symTick => exact fun hc hr => tickTimer_of_known (t := .sym) hc hr

/-- The heartbeat handler of a known compare register asks for a resume exactly when WAKE_REQ was set before it (R200). -/
theorem isrHb_of_ccr {s : State} {c : Word} (hc : s.hb.ccr = some c) :
    isrHb s = .next ((rearm .hb .hbDue c s).returnInterrupt (flagIsSet s.evflags .wakeReq)) := by
  have hw : flagIsSet (rearm .hb .hbDue c s).evflags .wakeReq = flagIsSet s.evflags .wakeReq := by
    rw [rearm_hb, wakeReq_setFlagBit_hbDue]
  simp only [isrHb, hc, hw]

theorem isrSym_of_ccr {s : State} {c : Word} (hc : s.sym.ccr = some c) : isrSym s = .next (rearm .sym .symDue c s) := by
  simp only [isrSym, hc, State.returnInterrupt_false]

/-- A resume request wakes a sleeping CPU (R286). -/
theorem State.returnInterrupt_of_wake {s : State} {r : Bool} (hr : r = true) (hm : s.mode = .sleep) :
    s.returnInterrupt r = { s with mode := .active }.emit .cpu .resume := if_pos ⟨hr, hm⟩

/-- A return without a resume request, or to a CPU that does not sleep, changes nothing (R286). -/
theorem State.returnInterrupt_of_no_wake {s : State} {r : Bool} (h : r = false ∨ s.mode ≠ .sleep) :
    s.returnInterrupt r = s := by
  refine if_neg ?_
  rintro ⟨hr, hm⟩
  exact h.elim (fun hf => nomatch hr.symm.trans hf) (fun hn => hn hm)

/-- Settles O36: the re-arming, then a return with WAKE_REQ as its resume request. -/
theorem heartbeatHandlerRearmsFlagsAndWakes : Obligations.HeartbeatHandlerRearmsFlagsAndWakes := by
  intro s c hc
  rw [take, isrHb_of_ccr hc, rearm_hb]
  refine ⟨addW s.params.wHb c s.params.hbInc, rfl, fun (hw : flagIsSet _ .wakeReq = true) hm => ?wake,
    fun h => ?stay⟩
  case wake =>
    rw [State.returnInterrupt_of_wake hw]
    · simp [State.emit, setFlagBit, EventFlag.bit]
    · exact hm
  case stay => exact congrArg _ (State.returnInterrupt_of_no_wake h)

/-- Settles O37: the re-arming, and nothing after it. -/
theorem symbolHandlerRearmsAndNeverWakes : Obligations.SymbolHandlerRearmsAndNeverWakes := by
  intro s c hc
  refine ⟨addW s.params.wSym c s.params.symInc, rfl, (isrSym_of_ccr hc).trans ?_⟩
  rw [rearm_sym]
  rfl

/-! ### The value a ledger gives -/

/-- Before the first interrupt step the value is the base (R201). -/
theorem periodicValue_zero {p : Params} {t : TimerId} {b : Word} (hb : b.toNat < 2 ^ p.width t) :
    periodicValue p t (b, 0) = b := by
  simp [periodicValue, Nat.mod_eq_of_lt hb]

/-- One interrupt step more adds the increment once more (R200, R202). -/
theorem addW_periodicValue {p : Params} {t : TimerId} (hw : p.width t ≤ 32) (b : Word) (n : Nat) :
    addW (p.width t) (periodicValue p t (b, n)) (p.increment t) = periodicValue p t (b, n + 1) := by
  simp only [addW, periodicValue, ofNat_mod_toNat _ hw, Nat.mod_add_mod, Nat.succ_mul, add_assoc]

/-! ### Records and the ledger -/

/-- A record that leaves the ledger of timer `t` alone. -/
def Record.Unledgered (t : TimerId) (r : Record) : Prop := ∀ p acc, ledgerStep p t acc r = acc

theorem ledger_append (p : Params) (t : TimerId) (h new : List Record) :
    ledger p t (h ++ new) = new.foldl (ledgerStep p t) (ledger p t h) := List.foldl_append

theorem foldl_ledgerStep_unledgered {p : Params} {t : TimerId} {new : List Record} (hnew : ∀ r ∈ new, r.Unledgered t)
    (acc : Option (Word × Nat)) : new.foldl (ledgerStep p t) acc = acc := by
  induction new with
  | nil => rfl
  | cons r new ih =>
    obtain ⟨hr, hrest⟩ := List.forall_mem_cons.1 hnew
    rw [List.foldl_cons, hr, ih hrest]

/-! ### The periodicity law of one timer -/

/-- The compare register of timer `t` is the value its ledger gives (R201, R203). -/
def Periodic (s : State) (t : TimerId) : Prop :=
  (s.timer t).ccr = (ledger s.params t s.history).map (periodicValue s.params t)

/-- A step that keeps the compare register and records nothing about it keeps the law. -/
theorem Periodic.kept {s s' : State} {t : TimerId} (h : Periodic s t) (new : List Record)
    (hh : s'.history = s.history ++ new) (hp : s'.params = s.params := by rfl)
    (hccr : (s'.timer t).ccr = (s.timer t).ccr := by rfl)
    (hnew : ∀ r ∈ new, r.Unledgered t := by simp [Record.Unledgered, ledgerStep]) : Periodic s' t := by
  rw [Periodic, hccr, hp, hh, ledger_append, foldl_ledgerStep_unledgered hnew]
  exact h

/-- A step that writes a base and records it makes the law true, whatever was before (R192, R205). -/
theorem Periodic.based {s s' : State} {t : TimerId} {b : Word} (r : Record)
    (hr : ∀ acc, ledgerStep s.params t acc r = some (b, 0)) (hb : b.toNat < 2 ^ s.params.width t)
    (hh : s'.history = s.history ++ [r]) (hp : s'.params = s.params) (hccr : (s'.timer t).ccr = some b) :
    Periodic s' t := by
  rw [Periodic, hccr, hp, hh, ledger_append, List.foldl_cons, hr, List.foldl_nil, Option.map_some, periodicValue_zero hb]

/-- An interrupt step adds the increment to the compare register and one to the ledger's count (R200, R202). -/
theorem Periodic.rearmed {s s' : State} {t : TimerId} {c v : Word} (h : Periodic s t) (hv : s.params.valid = true)
    (hc : (s.timer t).ccr = some c) (rest : List Record)
    (hh : s'.history = s.history ++ ⟨.cpu, .isr t v⟩ :: rest) (hp : s'.params = s.params)
    (hccr : (s'.timer t).ccr = some (addW (s.params.width t) c (s.params.increment t)))
    (hrest : ∀ r ∈ rest, r.Unledgered t := by simp [Record.Unledgered, ledgerStep]) : Periodic s' t := by
  obtain ⟨⟨b, n⟩, hl, rfl⟩ := Option.map_eq_some_iff.1 (h.symm.trans hc)
  have counted : ledger s'.params t s'.history = some (b, n + 1) := by
    rw [hp, hh, ledger_append, List.foldl_cons, foldl_ledgerStep_unledgered hrest, hl]
    simp [ledgerStep]
  rw [Periodic, hccr, counted, hp, addW_periodicValue (Params.width_le hv t), Option.map_some]

/-- A reset makes the compare register UNKNOWN and the ledger empty (R297). -/
theorem Periodic.watchdogReset (s : State) (d : Bool) (t : TimerId) : Periodic (s.watchdogReset d) t := by
  have emptied : ledger (s.watchdogReset d).params t (s.watchdogReset d).history = none := ledger_append _ _ _ _
  rw [Periodic, emptied]
  cases t <;> rfl

/-! ### Both timers -/

/-- A step at no timer's compare register keeps both laws. -/
theorem PeriodInv.kept {s s' : State} (h : PeriodInv s) (new : List Record)
    (hh : s'.history = s.history ++ new) (hp : s'.params = s.params := by rfl)
    (hccr : ∀ t, (s'.timer t).ccr = (s.timer t).ccr := by exact fun _ => rfl)
    (hnew : ∀ t, ∀ r ∈ new, r.Unledgered t := by simp [Record.Unledgered, ledgerStep]) : PeriodInv s' :=
  fun t => Periodic.kept (h t) new hh hp (hccr t) (hnew t)

theorem PeriodInv.disableMicro {s : State} (h : PeriodInv s) (m : ModuleId) (k : DisableStep) :
    PeriodInv (disableMicro m k s) := by
  cases m <;> cases k <;> exact h.kept [_] rfl

theorem PeriodInv.enableMicro {s : State} (h : PeriodInv s) (m : ModuleId) (k : EnableStep) :
    PeriodInv (enableMicro m k s) := by
  cases k with
  | e2 => cases m <;> exact h.kept _ (List.append_assoc ..)
  | e1 | e3 | e4 | s => cases m <;> exact h.kept [_] rfl

theorem timer_startTimer_other (s : State) : ∀ {t u : TimerId}, t ≠ u → (startTimer t s).timer u = s.timer u
  | .hb, .sym, _ => rfl
  | .sym, .hb, _ => rfl

/-- TIMER_START gives its own timer a base and keeps the other (R192). -/
theorem PeriodInv.startTimer {s : State} (h : PeriodInv s) (hv : s.params.valid = true) (t : TimerId) :
    PeriodInv (startTimer t s) := by
  intro u
  by_cases hu : t = u
  · subst hu
    exact Periodic.based ⟨.cpu, .timerInit t⟩ (by simp [ledgerStep]) (Params.first_lt hv t)
      (by simp [Machine.startTimer]) (by simp [Machine.startTimer]) (by cases t <;> rfl)
  · exact Periodic.kept (h u) [⟨.cpu, .timerInit t⟩] (by simp [Machine.startTimer]) (by simp [Machine.startTimer])
      (congrArg Timer.ccr (timer_startTimer_other s hu)) (by simp [Record.Unledgered, ledgerStep, hu])

theorem PeriodInv.initMicro {s : State} (h : PeriodInv s) (hv : s.params.valid = true) (k : InitStep) :
    PeriodInv (initMicro k s) := by
  cases k with
  | i2 => exact initMicro_i2 s ▸ h.kept _ rfl
  | i3 k | i4 k => cases k <;> exact h.kept [_] rfl
  | i0 | i1 => exact h.kept [_] rfl
  | i5 => exact h.startTimer hv .hb
  | i6 => exact h.startTimer hv .sym
  | i7 => exact h

/-! ### Every transition -/

theorem MainCase.periodInv {s s' : State} (hc : MainCase s s') (hv : s.params.valid = true) (h : PeriodInv s) :
    PeriodInv s' := by
  cases hc with
  | initStep k => exact h.initMicro hv k
  | disableStep m k => exact h.disableMicro m k
  | enableStep m k => exact h.enableMicro m k
  | oscStep k => cases k <;> exact h.kept [_] rfl
  | moduleEntry m target => cases target <;> exact h
  | symEntry => exact fun
    | .hb => Periodic.kept (h .hb) [⟨.cpu, .symResetCcr⟩] rfl
    | .sym => Periodic.based ⟨.cpu, .symResetCcr⟩ (by simp [ledgerStep]) (by simp) rfl rfl rfl
  | symStep => exact h.kept [_] rfl rfl fun | .hb | .sym => rfl
  | raised | feed | sleep | delay | flagsRead | flagsClear | flagsXchg | halt => exact h.kept [_] rfl
  | initEntry | irq | regRead | goTo => exact h

theorem OtherCase.periodInv {s s' : State} {c : Choice} (hc : OtherCase s c s') (hv : s.params.valid = true)
    (h : PeriodInv s) : PeriodInv s' := by
  cases hc with
  | isrHb c hc | isrHbWake c hc => exact fun
    | .hb => Periodic.rearmed (h .hb) hv hc _ rfl rfl rfl
    | .sym => Periodic.kept (h .sym) _ rfl
  | isrSym c hc => exact fun
    | .hb => Periodic.kept (h .hb) _ rfl
    | .sym => Periodic.rearmed (h .sym) hv hc _ rfl rfl rfl
  | wdtReset d => exact Periodic.watchdogReset s d
  | nmiEntry | nmiClear | nmiRetry | nmiExit | isrExt | isrExtWake => exact h.kept _ rfl
  | tickHb | tickSym => exact fun
    | .hb => h .hb
    | .sym => h .sym
  | nmiIdle | nmiWait | wdtCount | oscBad | oscGood | extReq => exact h

/-- Settles O47: a compare register is written only by a start-up, RESET_SYM, its own handler and a reset, each of which its ledger
counts. -/
theorem everyStepKeepsPeriodicity : Obligations.EveryStepKeepsPeriodicity := by
  intro s s' hv h hstep
  have hconsumed : PeriodInv s.consume := h
  obtain ⟨c, -, -, ⟨-, hc⟩ | hc⟩ := step_cases hstep
  · exact hc.periodInv hv hconsumed
  · exact hc.periodInv hv hconsumed

end Sys2Proof.Machine

/-!
SUPPORT. The watchdog's bound along finite runs, and what the commands of the power, flag and interrupt family answer once INIT_HW is
done and before it (43_power_flags.md rules R230 to R240, 44_sequencer.md rule R267, 60_exceptions.md rule R296).
-/

namespace Sys2Proof.Machine

/-! ### The watchdog along a run -/

/-- Settles O59: without a feed and a reset the ticks of the run stay below what is missing to the timeout. -/
theorem watchdogIsFedOrResetsInTime : Obligations.WatchdogIsFedOrResetsInTime := by
  intro cs s s' hlt hrun hticks
  obtain hfed | hbelow := hrun.fedOrReset_or_lt hlt
  · exact hfed
  · exact absurd hticks (Nat.not_le.2 hbelow)

/-! ### Core commands and their operands -/

/-- R267: a core command runs its body once INIT_HW is done, and before it records NotInitialised with its own word. -/
theorem exec_of_coreCommand {i : Instr} {body : State → State} (h : ∀ s, exec i s = coreCommand i s body) (s : State) :
    (s.initDone = true → exec i s = .next (body s)) ∧
    (s.initDone = false → exec i s = .next (s.faulted .notInitialised (some (encode i)))) :=
  ⟨fun hd => (h s).trans (coreCommand_of_done hd i body), fun hd => (h s).trans (coreCommand_of_not_done hd i body)⟩

/-- R102: a delay's count keeps its value when it is widened. -/
theorem countValue_eq_ofNat (n : BitVec 16) : countValue n = BitVec.ofNat 32 n.toNat := (BitVec.ofNat_toNat 32 n).symm

/-- R236, R238: flags keep their value when they are widened to the accumulator. -/
theorem flagsToAcc_eq_ofNat (v : BitVec 3) : flagsToAcc v = BitVec.ofNat 32 v.toNat := (BitVec.ofNat_toNat 32 v).symm

theorem getLsbD_clearFlagBits (v mask : BitVec 3) (n : Nat) (hn : n < 3) :
    (clearFlagBits v mask).getLsbD n = (v.getLsbD n && !mask.getLsbD n) := by
  simp only [clearFlagBits, BitVec.getLsbD_and, BitVec.getLsbD_not, hn, decide_true, Bool.true_and]

/-- R104: a 3-bit mask widened to the A field is the mask below five bits of 0. -/
theorem setWidth_mask3 (mask : BitVec 3) : mask.setWidth 8 = 0#5 ++ mask := BitVec.setWidth_eq_append (by decide)

theorem encode_flagsClear (mask : BitVec 3) : encode (.flagsClear mask) = 0x09#8 ++ ((0#5 ++ mask) ++ 0#16) :=
  congrArg (mkWord 0x09 · 0) (setWidth_mask3 mask)

theorem encode_flagsXchg (mask : BitVec 3) : encode (.flagsXchg mask) = 0x0A#8 ++ ((0#5 ++ mask) ++ 0#16) :=
  congrArg (mkWord 0x0A · 0) (setWidth_mask3 mask)

/-! ### Power, delays and the watchdog -/

/-- Settles O13: FEED_WDT is a core command whose body clears the count. -/
theorem feedWdtClearsTheCount : Obligations.FeedWdtClearsTheCount :=
  ⟨decode_encode (i := .feedWdt) rfl, exec_of_coreCommand fun _ => rfl⟩

/-- Settles O14: SLEEP is a core command whose body enters Sleep with interrupts on. -/
theorem sleepEntersSleepWithInterruptsOn : Obligations.SleepEntersSleepWithInterruptsOn :=
  ⟨decode_encode (i := .sleep) rfl, exec_of_coreCommand fun _ => rfl⟩

/-- Settles O15: both delays are core commands whose body records the widened count. -/
theorem delaysChangeOnlyPcAndHistory : Obligations.DelaysChangeOnlyPcAndHistory := by
  intro n
  refine ⟨decode_encode (i := .delayMs n) rfl, decode_encode (i := .delayUs n) rfl, fun s => ?_⟩
  rw [← countValue_eq_ofNat]
  obtain ⟨msDone, msFault⟩ := exec_of_coreCommand (i := .delayMs n) (fun _ => rfl) s
  obtain ⟨usDone, usFault⟩ := exec_of_coreCommand (i := .delayUs n) (fun _ => rfl) s
  exact ⟨fun hd => ⟨msDone hd, usDone hd⟩, fun hd => ⟨msFault hd, usFault hd⟩⟩

/-! ### Event flags -/

/-- Settles O16: FLAGS_READ is a core command whose body copies the widened flags. -/
theorem flagsReadCopiesTheFlags : Obligations.FlagsReadCopiesTheFlags := by
  refine ⟨decode_encode (i := .flagsRead) rfl, fun s => ?_⟩
  rw [← flagsToAcc_eq_ofNat]
  exact exec_of_coreCommand (i := .flagsRead) (fun _ => rfl) s

/-- Settles O17: FLAGS_CLEAR is a core command whose body clears the bits of the mask. -/
theorem flagsClearClearsTheMask : Obligations.FlagsClearClearsTheMask := by
  intro mask
  rw [← encode_flagsClear]
  refine ⟨decode_encode rfl, fun s => ?_⟩
  obtain ⟨done, fault⟩ := exec_of_coreCommand (i := .flagsClear mask) (fun _ => rfl) s
  exact ⟨fun hd => ⟨clearFlagBits s.evflags mask, getLsbD_clearFlagBits _ _, done hd⟩, fault⟩

/-- Settles O18: FLAGS_XCHG is a core command whose body reads the masked bits and clears them. -/
theorem flagsXchgReadsAndClears : Obligations.FlagsXchgReadsAndClears := by
  intro mask
  rw [← encode_flagsXchg]
  refine ⟨decode_encode rfl, fun s => ?_⟩
  obtain ⟨done, fault⟩ := exec_of_coreCommand (i := .flagsXchg mask) (fun _ => rfl) s
  refine ⟨fun hd => ⟨s.evflags &&& mask, clearFlagBits s.evflags mask, fun _ _ => BitVec.getLsbD_and,
    getLsbD_clearFlagBits _ _, ?_⟩, fault⟩
  rw [← flagsToAcc_eq_ofNat]
  exact done hd

/-! ### Interrupt suppression -/

/-- Settles O19: IRQ_OFF and IRQ_ON are core commands whose bodies write `gie`. -/
theorem irqCommandsWriteOnlyGie : Obligations.IrqCommandsWriteOnlyGie := by
  refine ⟨decode_encode (i := .irqOff) rfl, decode_encode (i := .irqOn) rfl, fun s => ?_⟩
  obtain ⟨offDone, offFault⟩ := exec_of_coreCommand (i := .irqOff) (fun _ => rfl) s
  obtain ⟨onDone, onFault⟩ := exec_of_coreCommand (i := .irqOn) (fun _ => rfl) s
  exact ⟨fun hd => ⟨offDone hd, onDone hd⟩, fun hd => ⟨offFault hd, onFault hd⟩⟩

end Sys2Proof.Machine

/-!
SUPPORT. Fetch, order of use and the sequencer's own commands: what each answers, case by case (44_sequencer.md rules R260 to R267);
when the agents that wait for no request have a step (60_exceptions.md rules R290, R296).
-/

namespace Sys2Proof.Machine

/-! ### Fetch -/

/-- R280: a raise and the state a fault is said to leave are one update. -/
theorem State.raise_eq_faulted (s : State) (code : FaultCode) (w : Option Word) : s.raise code w = s.faulted code w := rfl

/-- Settles O6: the choice picked is main-line code's, and its step at a command boundary is the decoded command's. -/
theorem stepRunsTheDecodedCommand : Obligations.StepRunsTheDecodedCommand := by
  intro s w i hpick hp hw hi
  calc step s
      = mainStep s.consume := by simp only [step, stepOnce, hpick, take]
    _ = exec i s.consume := mainStep_of_decode (s := s.consume) hp hw hi

/-- Settles O10: no word lies at or beyond the end of PROGRAM, and an illegal word is refused before any command is known. -/
theorem fetchFaultsBeforeExecution : Obligations.FetchFaultsBeforeExecution := by
  intro s hp
  refine ⟨fun hend => ?pastTheEnd, fun w e hw he => ?illegal⟩
  case pastTheEnd =>
    simp only [mainStep, hp, fetchStep, fetchWord_eq_none.2 hend, State.raise_eq_faulted]
  case illegal =>
    simp only [mainStep, hp, fetchStep, fetchWord, hw, he, State.raise_eq_faulted]

/-! ### REG_READ -/

theorem exec_regRead_of_value {idx : BitVec 8} {r : RegName} {s : State} {v : Word} (hr : regOfIndex idx = some r)
    (hv : readReg s r = some v) : exec (.regRead idx) s = .next { s with acc := some v, pc := s.pc + 1 } := by
  simp only [exec, execRegRead, hr, hv, State.advance]

theorem exec_regRead_of_unknown {idx : BitVec 8} {r : RegName} {s : State} (hr : regOfIndex idx = some r)
    (hv : readReg s r = none) :
    exec (.regRead idx) s = .next (s.faulted .readUnspecified (some (encode (.regRead idx)))) := by
  simp only [exec, execRegRead, hr, hv, State.raise_eq_faulted]

/-- R60: every index below the reserved ones names a register. -/
theorem regOfIndex_isSome : ∀ idx : BitVec 8, idx.toNat < 0x10 → (regOfIndex idx).isSome = true := by decide

/-- R69, R110: the word of a reserved index is illegal. -/
theorem decode_regRead_reserved {idx : BitVec 8} (h : 0x10 ≤ idx.toNat) :
    decode (encode (.regRead idx)) = .error .reservedIndex := by
  have operand : decode (encode (.regRead idx)) = decodeRegidx idx 0 := by
    simp only [decode, encode, opcField_mkWord, aField_mkWord, immField_mkWord]
    rfl
  rw [operand, decodeRegidx, if_pos rfl, if_neg (show ¬idx.toNat < firstReservedIndex from Nat.not_lt.2 h)]

/-- Settles O20: an index is reserved and its word illegal, or it names a register, which is read as it stands. -/
theorem regReadCopiesTheRegister : Obligations.RegReadCopiesTheRegister := by
  intro idx
  refine ⟨fun h => ⟨_, decode_regRead_reserved h⟩, fun h => ⟨decode_encode (i := .regRead idx) (decide_eq_true h), ?_⟩⟩
  obtain ⟨r, hr⟩ := Option.isSome_iff_exists.1 (regOfIndex_isSome idx h)
  exact ⟨r, hr, fun s => ⟨fun v => exec_regRead_of_value hr, exec_regRead_of_unknown hr⟩⟩

/-! ### Branches and HALT -/

/-- R105: the test mask sees exactly the bits 7:0 of the accumulator that are under it. -/
theorem and_testMask_eq_zero_iff {a : Word} {mask : BitVec 8} :
    a &&& testMask mask = 0 ↔ ∀ n, n < 8 → a.getLsbD n = true → mask.getLsbD n = false := by
  have bit (n : Nat) (hn : n < 32) :
      (a &&& testMask mask).getLsbD n = (a.getLsbD n && mask.getLsbD n) := by
    simp [testMask, hn]
  constructor
  · intro hzero n hn ha
    simpa [hzero, ha] using bit n (by omega)
  · intro hclear
    refine BitVec.eq_of_getLsbD_eq fun n hn => ?_
    rw [bit n hn]
    by_cases hlow : n < 8
    · cases ha : a.getLsbD n <;> simp [ha, hclear n hlow]
    · simp [BitVec.getLsbD_of_ge mask n (by omega)]

theorem exec_bz (mask : BitVec 8) (target : BitVec 16) (s : State) :
    exec (.bz mask target) s = branchOnAcc (.bz mask target) s mask target (· == 0) := rfl

theorem exec_bnz (mask : BitVec 8) (target : BitVec 16) (s : State) :
    exec (.bnz mask target) s = branchOnAcc (.bnz mask target) s mask target (· != 0) := rfl

theorem branchOnAcc_of_unwritten {s : State} (ha : s.acc = none) (i : Instr) (mask : BitVec 8) (target : BitVec 16)
    (cond : Word → Bool) :
    branchOnAcc i s mask target cond = .next (s.faulted .unwrittenAcc (some (encode i))) := by
  simp only [branchOnAcc, ha, State.raise_eq_faulted]

theorem exec_bz_of_acc {s : State} {a : Word} (ha : s.acc = some a) (mask : BitVec 8) (target : BitVec 16) :
    exec (.bz mask target) s =
      .next { s with pc := if a &&& testMask mask = 0 then target.toNat else s.pc + 1 } := by
  simp only [exec_bz, branchOnAcc, ha, targetIndex, beq_iff_eq]

theorem exec_bnz_of_acc {s : State} {a : Word} (ha : s.acc = some a) (mask : BitVec 8) (target : BitVec 16) :
    exec (.bnz mask target) s =
      .next { s with pc := if a &&& testMask mask = 0 then s.pc + 1 else target.toNat } := by
  simp only [exec_bnz, branchOnAcc, ha, targetIndex, bne_iff_ne, ne_eq, ite_not]

/-- Settles O26: both words decode, and the two conditions are those of the masked accumulator being 0 or not. -/
theorem branchesTestTheMaskedAccumulator : Obligations.BranchesTestTheMaskedAccumulator := by
  intro mask target
  refine ⟨decode_encode (i := .bz mask target) rfl, decode_encode (i := .bnz mask target) rfl, fun s => ?_⟩
  refine ⟨fun ha => ?unwritten, fun a ha => ⟨fun ⟨n, hn, hbit, hmask⟩ => ?nonzero, fun hclear => ?zero⟩⟩
  case unwritten =>
    rw [exec_bz, exec_bnz, branchOnAcc_of_unwritten ha, branchOnAcc_of_unwritten ha]
    exact ⟨rfl, rfl⟩
  case nonzero =>
    have hne : a &&& testMask mask ≠ 0 := fun hzero =>
      Bool.false_ne_true ((and_testMask_eq_zero_iff.1 hzero n hn hbit).symm.trans hmask)
    simp only [exec_bz_of_acc ha, exec_bnz_of_acc ha, if_neg hne, and_self]
  case zero =>
    have hzero : a &&& testMask mask = 0 := and_testMask_eq_zero_iff.2 hclear
    simp only [exec_bz_of_acc ha, exec_bnz_of_acc ha, if_pos hzero, and_self]

/-- Settles O25: both commands are one update, and HALT's leaves a machine that is not alive. -/
theorem jumpAndHalt : Obligations.JumpAndHalt := by
  refine ⟨decode_encode (i := .halt) rfl, fun s target => ⟨decode_encode (i := .jmp target) rfl, rfl, rfl, ?_⟩⟩
  intro t c hexec
  cases hexec
  rw [← Bool.not_eq_true]
  exact fun he => Bool.false_ne_true ((alive_eq_false_iff.2 (.inr rfl)).symm.trans (alive_of_enabled he))

/-! ### Order of use -/

/-- R261: the fault of a REG_READ is of the index or of the register's value. -/
theorem execRegRead_fault_code {idx : BitVec 8} {s t : State} {f : ModelFault} (hs : s.fault = none)
    (h : execRegRead idx s = .next t) (hf : t.fault = some f) : f.code = .illegalCommand ∨ f.code = .readUnspecified := by
  unfold execRegRead at h
  split at h
  case h_1 =>
    cases h
    cases hf
    exact .inl rfl
  case h_2 =>
    split at h <;> cases h
    · cases hf
      exact .inr rfl
    · exact nomatch hs.symm.trans hf

/-- R263, R264: the one fault of a branch is that of an unwritten accumulator. -/
theorem branchOnAcc_fault_code {i : Instr} {s t : State} {mask : BitVec 8} {target : BitVec 16} {cond : Word → Bool}
    {f : ModelFault} (hs : s.fault = none) (h : branchOnAcc i s mask target cond = .next t) (hf : t.fault = some f) :
    f.code = .unwrittenAcc := by
  obtain ⟨-, rfl⟩ | ⟨-, rfl | rfl⟩ := branchOnAcc_next h
  · cases hf
    rfl
  all_goals exact nomatch hs.symm.trans hf

/-- R267: every core command but INIT_HW checks `init_done` before its body. -/
theorem exec_eq_coreCommand {i : Instr} (hc : i.commandClass = .core) (hi : i ≠ .initHw) :
    ∃ body, ∀ s, exec i s = coreCommand i s body := by
  cases i with
  | initHw => exact absurd rfl hi
  | regRead | jmp | bz | bnz | halt => nomatch hc
  | feedWdt | cfgGpsDisabled | cfgGpsEnabled | cfgRfDisabled | cfgRfEnabled | sleep | delayMs | delayUs | resetSym | flagsRead
  | flagsClear | flagsXchg | irqOff | irqOn => exact ⟨_, fun _ => rfl⟩

/-- R267: a sequencer command makes no check of `init_done`. -/
theorem exec_seq_fault_code {i : Instr} {s t : State} {f : ModelFault} (hc : i.commandClass = .seq) (hs : s.fault = none)
    (h : exec i s = .next t) (hf : t.fault = some f) : f.code ≠ .notInitialised := by
  cases i with
  | regRead idx => obtain hcode | hcode := execRegRead_fault_code hs h hf <;> simp [hcode]
  | bz mask target => simp [branchOnAcc_fault_code hs (exec_bz mask target s ▸ h) hf]
  | bnz mask target => simp [branchOnAcc_fault_code hs (exec_bnz mask target s ▸ h) hf]
  | jmp | halt =>
    cases h
    exact nomatch hs.symm.trans hf
  | _ => nomatch hc

/-- Settles O11: the check of `init_done` is every core command's but INIT_HW's, and no sequencer command makes it. -/
theorem orderOfUseFaults : Obligations.OrderOfUseFaults := by
  intro i s
  refine ⟨fun hc hi hd => ?core, fun hc hs => ?seq⟩
  case core =>
    obtain ⟨body, hbody⟩ := exec_eq_coreCommand hc hi
    exact (exec_of_coreCommand hbody s).2 hd
  case seq =>
    obtain ⟨t, ht⟩ := exec_answers i s
    exact ⟨t, ht, fun f => exec_seq_fault_code hc hs ht⟩

/-! ### Steps that wait for no request -/

theorem inNmi_iff {s : State} : inNmi s = true ↔ ∃ k, s.ctx = .nmi k := by
  unfold inNmi
  split <;> simp [*]

/-- Settles O40: each enabling condition, with what it means for a state to be alive written out. -/
theorem otherStepsEnabled : Obligations.OtherStepsEnabled := by
  intro s
  refine ⟨?main, ?nmiStep, fun f => alive_iff⟩
  case main =>
    rw [enabled_main_iff, alive_iff]
    exact ⟨fun ⟨⟨hf, _⟩, hc, hm⟩ => ⟨hf, hc, hm⟩, fun ⟨hf, hc, hm⟩ => ⟨⟨hf, by simp [hm]⟩, hc, hm⟩⟩
  case nmiStep => rw [enabled, Bool.and_eq_true, alive_iff, inNmi_iff, and_assoc]

end Sys2Proof.Machine

/-!
SUPPORT. Faults, the NMI, the watchdog reset and the environment: what each of their transitions answers, when each is enabled, and what
every transition leaves of the fault record, of `FAULT` and of the order of the NMI's events (60_exceptions.md rules R280 to R297).
-/

namespace Sys2Proof.Machine

/-! ### The order of the NMI's events -/

/-- Records whose every NMI_EXIT comes right after a clear check among themselves, whatever came before them (R291). -/
def ExitsChecked (new : List Record) : Prop := ∀ last, nmiExitsFollowClearCheck last new = true

theorem nmiExitsFollowClearCheck_append {last : Option Event} {h new : List Record}
    (hold : nmiExitsFollowClearCheck last h = true) (hnew : ExitsChecked new) :
    nmiExitsFollowClearCheck last (h ++ new) = true := by
  induction h generalizing last with
  | nil => exact hnew last
  | cons r rest ih =>
    rw [List.cons_append]
    unfold nmiExitsFollowClearCheck at hold ⊢
    split at hold
    case isTrue hcpu =>
      obtain ⟨hr, hrest⟩ := Bool.and_eq_true_iff.1 hold
      rw [if_pos hcpu, hr, ih hrest, Bool.and_self]
    case isFalse hcpu => rw [if_neg hcpu, ih hold]

/-! ### What main-line code does to the fault record, `FAULT` and the NMI's events -/

/-- Main-line code raises a model fault at phase Fetch (R282, R295), or leaves the fault record, clears `FAULT` at most while the
oscillator condition is good (R292), and records no NMI_EXIT without its check. -/
inductive MainExceptionCase (s s' : State) : Prop where
  | raised (code : FaultCode) (w : Option Word) (hp : s.phase = .fetch) (hs : s' = s.raise code w)
  | quiet (new : List Record) (hh : s'.history = s.history ++ new) (hnew : ExitsChecked new := by exact fun _ => rfl)
      (hfault : s'.fault = s.fault := by rfl) (hosc : s'.oscOk = s.oscOk := by rfl)
      (hflag : s'.oscFault = s.oscFault ∨ s.oscOk = true := by exact .inl rfl)

theorem mainExceptionCase_disableMicro (m : ModuleId) (k : DisableStep) (s : State) :
    MainExceptionCase s (disableMicro m k s) := by
  cases m <;> cases k <;> exact .quiet [_] rfl

theorem mainExceptionCase_enableMicro (m : ModuleId) (k : EnableStep) (s : State) :
    MainExceptionCase s (enableMicro m k s) := by
  cases k with
  | e2 => cases m <;> exact .quiet _ (List.append_assoc ..)
  | e1 | e3 | e4 | s => cases m <;> exact .quiet [_] rfl

/-- O2 clears `FAULT` as hardware lets it (R171, R292); no other micro-step of the loop writes it. -/
theorem mainExceptionCase_oscMicro (k : OscStep) (s : State) : MainExceptionCase s (oscMicro k s) := by
  cases k with
  | o2 =>
    refine .quiet [_] rfl (hflag := ?_)
    cases ho : s.oscOk
    · exact .inl (by simp [oscMicro, ho])
    · exact .inr rfl
  | o1 | o3 | o4 => exact .quiet [_] rfl

theorem mainExceptionCase_initMicro (k : InitStep) (s : State) : MainExceptionCase s (initMicro k s) := by
  cases k with
  | i2 => exact initMicro_i2 s ▸ .quiet _ rfl
  | i3 k | i4 k => cases k <;> exact .quiet [_] rfl
  | i0 | i1 | i5 | i6 => exact .quiet [_] rfl
  | i7 => exact .quiet [] (List.append_nil _).symm

theorem MainCase.exceptionCase {s s' : State} (h : MainCase s s') : MainExceptionCase s s' := by
  cases h with
  | raised code w hp => exact .raised code w hp rfl
  | initStep k => exact mainExceptionCase_initMicro k s
  | disableStep m k => exact mainExceptionCase_disableMicro m k s
  | enableStep m k => exact mainExceptionCase_enableMicro m k s
  | oscStep k => exact mainExceptionCase_oscMicro k s
  | moduleEntry m target => cases target <;> exact .quiet [] (List.append_nil _).symm
  | initEntry | irq | regRead | goTo => exact .quiet [] (List.append_nil _).symm
  | feed | sleep | delay | symEntry | flagsRead | flagsClear | flagsXchg | halt | symStep => exact .quiet [_] rfl

/-! ### Every transition -/

/-- Main-line code records no NMI_EXIT (R291). -/
theorem MainCase.exitsChecked {s s' : State} (h : MainCase s s') :
    ∃ new, s'.history = s.history ++ new ∧ ExitsChecked new := by
  cases h.exceptionCase with
  | raised code w hp hs => exact ⟨[_], congrArg State.history hs, fun _ => rfl⟩
  | quiet new hh hnew => exact ⟨new, hh, hnew⟩

/-- The one NMI_EXIT any other transition records is N3's, right after its check read 0 (R290, R291). -/
theorem OtherCase.exitsChecked {s s' : State} {c : Choice} (h : OtherCase s c s') :
    ∃ new, s'.history = s.history ++ new ∧ ExitsChecked new := by
  cases h with
  | nmiIdle | nmiWait | tickHb | tickSym | wdtCount | oscBad | oscGood | extReq =>
    exact ⟨[], (List.append_nil _).symm, fun _ => rfl⟩
  | nmiEntry | nmiClear | nmiRetry | nmiExit | isrHb | isrHbWake | isrSym | isrExt | isrExtWake | wdtReset =>
    exact ⟨_, rfl, fun _ => rfl⟩

/-- Settles O48: the records of every step are checked by themselves, so they may follow any checked history. -/
theorem everyStepKeepsNmiExitsChecked : Obligations.EveryStepKeepsNmiExitsChecked := by
  intro s s' hold hstep
  obtain ⟨c, -, -, hcase⟩ := step_cases hstep
  obtain ⟨new, hh, hnew⟩ : ∃ new, s'.history = s.history ++ new ∧ ExitsChecked new :=
    hcase.elim (fun h => h.2.exitsChecked) OtherCase.exitsChecked
  exact hh ▸ nmiExitsFollowClearCheck_append hold hnew

/-- No agent but main-line code writes the fault record, and a reset keeps it (R280, R297). -/
theorem OtherCase.fault_eq {s s' : State} {c : Choice} (h : OtherCase s c s') : s'.fault = s.fault := by
  cases h <;> rfl

/-- Settles O12: of all transitions only main-line code's raise at phase Fetch writes the fault record. -/
theorem modelFaultsArePrecise : Obligations.ModelFaultsArePrecise := by
  intro s s' f hs hstep hf
  obtain ⟨c, hpick, -, ⟨rfl, hm⟩ | ho⟩ := step_cases hstep
  · cases hm.exceptionCase with
    | raised code w hp hraise =>
      subst hraise
      cases hf
      exact ⟨hpick, hp, rfl, rfl⟩
    | quiet new hh hnew hfault => nomatch hs.symm.trans (hfault.symm.trans hf)
  · nomatch hs.symm.trans (ho.fault_eq.symm.trans hf)

/-- Main-line code clears `FAULT` only while the oscillator condition is good (R292). -/
theorem MainCase.oscInv {s s' : State} (hc : MainCase s s') (h : OscInv s) : OscInv s' := by
  cases hc.exceptionCase with
  | raised code w hp hs => exact hs ▸ h
  | quiet new hh hnew hfault hosc hflag =>
    intro hbad
    have hbad : s.oscOk = false := hosc.symm.trans hbad
    obtain hkept | hgood := hflag
    · exact hkept.trans (h hbad)
    · nomatch hbad.symm.trans hgood

/-- The other writers of `FAULT` and `osc_ok` are N1, the oscillator and the reset (R290, R293, R297). -/
theorem OtherCase.oscInv {s s' : State} {c : Choice} (hc : OtherCase s c s') (h : OscInv s) : OscInv s' := by
  cases hc with
  | nmiClear => exact fun (hbad : s.oscOk = false) => by simp [hbad, h hbad]
  | wdtReset d => exact fun (hbad : s.oscOk = false) => by simp [hbad]
  | oscBad => exact fun _ => rfl
  | oscGood => exact nofun
  | nmiEntry | nmiIdle | nmiWait | nmiRetry | nmiExit | isrHb | isrHbWake | isrSym | isrExt | isrExtWake | tickHb | tickSym
  | wdtCount | extReq => exact h

/-- Settles O50: every clear of `FAULT` is made while the condition is good, and going bad forces it. -/
theorem everyStepKeepsTheFaultFlagForced : Obligations.EveryStepKeepsTheFaultFlagForced := by
  intro s s' h hstep
  have hconsumed : OscInv s.consume := h
  obtain ⟨c, -, -, ⟨-, hc⟩ | hc⟩ := step_cases hstep
  · exact hc.oscInv hconsumed
  · exact hc.oscInv hconsumed

/-- Settles O55: main-line code has no step in Sleep, and of the others only two handlers and the reset write the mode. -/
theorem sleepEndsOnlyByAWakeOrReset : Obligations.SleepEndsOnlyByAWakeOrReset := by
  intro s s' hstep hsleep hwoken
  obtain ⟨c, hpick, he, ⟨rfl, -⟩ | ho⟩ := step_cases hstep
  · obtain ⟨-, -, hactive⟩ := enabled_main_iff.1 he
    nomatch hsleep.symm.trans hactive
  · cases ho with
    | isrHbWake c hr hw => exact ⟨rfl, .inl ⟨hpick, hw⟩⟩
    | isrExtWake => exact ⟨rfl, .inr (.inl hpick)⟩
    | wdtReset d => exact ⟨rfl, .inr (.inr ⟨d, hpick, rfl⟩)⟩
    | nmiEntry | nmiIdle | nmiClear | nmiWait | nmiRetry | nmiExit | isrHb | isrSym | isrExt | tickHb | tickSym | wdtCount
    | oscBad | oscGood | extReq => exact absurd hsleep hwoken

/-- Settles O57: main-line code has no step in the handler, and of the others only N3 and the reset give Main back. -/
theorem nmiHandlerEndsOnlyOnAClearCheckOrReset : Obligations.NmiHandlerEndsOnlyOnAClearCheckOrReset := by
  intro s s' hstep hin hout
  obtain ⟨c, -, he, ⟨rfl, -⟩ | ho⟩ := step_cases hstep
  · obtain ⟨-, hmain, -⟩ := enabled_main_iff.1 he
    exact absurd hmain hin
  · cases ho with
    | nmiExit hn hf => exact .inl ⟨hn, hf, rfl⟩
    | wdtReset d => exact .inr rfl
    | nmiEntry | nmiClear | nmiWait | nmiRetry => nomatch hout
    | nmiIdle | isrHb | isrHbWake | isrSym | isrExt | isrExtWake | tickHb | tickSym | wdtCount | oscBad | oscGood | extReq =>
      exact absurd hout hin

/-! ### The external wake source and the oscillator -/

/-- What the external handler does before it returns (R288), every field written out. -/
theorem isrExt_eq_returnInterrupt (r : Bool) (s : State) :
    isrExt r s = State.returnInterrupt { s with
      extPend := false
      evflags := s.evflags ||| 0b100
      history := s.history ++ [⟨.cpu, .flagSet 2⟩, ⟨.cpu, .extIsr r⟩] } r := by
  simp [isrExt, State.setFlag, State.emit, setFlagBit, EventFlag.bit]

/-- Settles O38: the request is one update, and the handler's draw is the resume request of its return. -/
theorem externalWakeSourceSteps : Obligations.ExternalWakeSourceSteps := by
  refine ⟨rfl, fun s => ⟨?enabled, rfl, fun r => ⟨?wake, ?stay⟩⟩⟩
  case enabled => rw [enabled, extRequestEnabled_iff, alive_iff, and_assoc]
  case wake =>
    intro hr hm
    rw [take, isrExt_eq_returnInterrupt, State.returnInterrupt_of_wake hr]
    · simp [State.emit]
    · exact hm
  case stay =>
    intro h
    rw [take, isrExt_eq_returnInterrupt]
    exact congrArg _ (State.returnInterrupt_of_no_wake h)

/-- Settles O43: the flip is one update by the condition before it. -/
theorem oscillatorConditionFlips : Obligations.OscillatorConditionFlips := by
  refine ⟨rfl, fun s => ⟨alive_iff, fun ho => ?bad, fun ho => ?good⟩⟩
  case bad | good => simp [take, oscChange, ho]

/-! ### Acceptance -/

/-- R284: a maskable source needs `gie`, its own request and enable, and no NMI that comes first. -/
theorem maskableAccepted_iff_conditions {s : State} {v : IrqSource} :
    maskableAccepted s v = true ↔ s.fault = none ∧ s.mode ≠ .halted ∧ s.ctx = .main ∧ s.gie = true ∧
      (irqPending s v = true ∧ irqEnabled s v = true) ∧ ¬(s.oscFault = true ∧ s.faultIe = true) := by
  rw [maskableAccepted_iff, ← Bool.not_eq_true, nmiAccepted_iff, alive_iff]
  tauto

/-- Settles O39: one condition for the three maskable sources, and the NMI's own. -/
theorem interruptAcceptance : Obligations.InterruptAcceptance := by
  refine ⟨⟨rfl, rfl, rfl, fun _ => rfl⟩, fun s => ⟨?nmi, ?hb, ?sym, fun r => ?ext⟩⟩
  case nmi => rw [enabled, nmiAccepted_iff, alive_iff, and_assoc]
  case hb => exact maskableAccepted_iff_conditions (v := .hbMatch)
  case sym => exact maskableAccepted_iff_conditions (v := .symMatch)
  case ext => exact maskableAccepted_iff_conditions (v := .extWake)

/-! ### The clock-fault handler -/

theorem take_nmiStep {s : State} {k : NmiStep} (hc : s.ctx = .nmi k) : take .nmiStep s = .next (nmiMicro k s) := by
  simp only [take, nmiHandlerStep, hc]

/-- N1 is the software clear as hardware lets it (R290, R292). -/
theorem nmiMicro_n1 (s : State) : nmiMicro .n1 s = { s with
    ctx := .nmi .n2
    oscFault := s.oscFault && !s.oscOk
    history := s.history ++ [⟨.cpu, .faultClear .nmi⟩] } := by
  cases ho : s.oscOk <;> simp [nmiMicro, State.clearOscFault, State.emit, ho]

theorem nmiMicro_n3_of_fault {s : State} (hf : s.oscFault = true) :
    nmiMicro .n3 s = { s with ctx := .nmi .n1, history := s.history ++ [⟨.cpu, .faultCheck .nmi true⟩] } := by
  simp [nmiMicro, State.emit, hf]

theorem nmiMicro_n3_of_clear {s : State} (hf : s.oscFault = false) :
    nmiMicro .n3 s = { s with
      ctx := .main
      history := s.history ++ [⟨.cpu, .faultCheck .nmi false⟩, ⟨.cpu, .nmiExit⟩] } := by
  simp [nmiMicro, State.returnNmi, State.emit, hf]

/-- Settles O41: the entry is one update, and each micro-step is the one its context names. -/
theorem clockFaultHandlerSteps : Obligations.ClockFaultHandlerSteps := by
  refine fun s => ⟨rfl, fun hc => ?n1, fun hc => take_nmiStep hc, fun hc hf => ?retry, fun hc hf => ?exit⟩
  case n1 => rw [take_nmiStep hc, nmiMicro_n1]
  case retry => rw [take_nmiStep hc, nmiMicro_n3_of_fault hf]
  case exit => rw [take_nmiStep hc, nmiMicro_n3_of_clear hf]

/-! ### The watchdog -/

/-- Settles O42: below the timeout the count is the one field written; at it the reset state is written out. -/
theorem watchdogTickCountsOrResets : Obligations.WatchdogTickCountsOrResets :=
  fun _ _ => ⟨fun hw => congrArg _ (if_neg hw), fun hw => congrArg _ (if_pos hw)⟩

end Sys2Proof.Machine

/-!
SUPPORT. The state after power-on reset: its values, what its registers read, and the invariants it meets (70_reset_and_hazards.md
rules R330, R331).
-/

namespace Sys2Proof.Machine

/-! ### The reset table -/

/-- R292, R330: the drawn flag counts only while the oscillator condition is good. -/
theorem OscInv.reset : OscInv State.reset := fun hbad => by
  simp [State.reset, show Config.powerOnOscOk = false from hbad]

/-- Settles O23: each row of the table is a field of `State.reset`, and the law of the two draws is `OscInv`'s. -/
theorem powerOnResetLeavesTheTabledValues : Obligations.PowerOnResetLeavesTheTabledValues := by
  refine ⟨?cpu, ?outputs, ?modules, ?timers, ?osc⟩
  case cpu => exact ⟨rfl, rfl, rfl, rfl, rfl, rfl, rfl, rfl, rfl, rfl⟩
  case outputs => exact ⟨rfl, rfl, rfl, rfl, rfl, rfl, rfl⟩
  case modules => exact fun m => by cases m <;> rfl
  case timers => exact fun t => by cases t <;> rfl
  case osc =>
    rw [Bool.or_eq_true, or_iff_not_imp_left, Bool.not_eq_true]
    exact OscInv.reset

/-! ### Registers -/

/-- Settles O24: the register map gives OSC as a number, to which FAULT_IE and `xosc_on` add 0; no other register depends on a draw. -/
theorem registerReadsAfterReset : Obligations.RegisterReadsAfterReset := by
  refine ⟨?zero, ?osc, ?unknown⟩
  case zero =>
    simp only [List.forall_mem_cons]
    exact ⟨rfl, rfl, rfl, rfl, rfl, rfl, rfl, nofun⟩
  case osc =>
    obtain ⟨-, -, -, -, osc, -⟩ := registerMapContents State.reset
    exact osc
  case unknown =>
    simp only [List.forall_mem_cons]
    exact ⟨rfl, rfl, rfl, rfl, rfl, rfl, rfl, rfl, nofun⟩

/-! ### Invariants -/

/-- INIT_HW has driven nothing yet. -/
theorem Driven.reset : Driven State.reset 0 where
  clocks := ⟨rfl, rfl⟩
  pins := rfl
  rails := State.rails_isSome rfl rfl
  gpsReset := rfl
  gpsPins := rfl
  rfReset := rfl
  rfPins := rfl
  hbRun := rfl
  symRun := rfl

/-- What the invariant says of the free launch arguments is their form (R5, R81), and of the draws the law of R292. -/
theorem Inv.reset : Inv State.reset :=
  { Driven.reset with
    params := Config.launch_valid
    program := reset_program_wf
    pcRange := Nat.zero_le _
    pcHeld := fun hn => absurd rfl hn
    hb := .atReset _
    sym := .atReset _
    wdt := by
      obtain ⟨-, -, -, -, ht⟩ := Params.valid_bounds Config.launch_valid
      exact ht
    osc := OscInv.reset
    boot := fun _ => ⟨rfl, rfl, rfl, nofun, rfl⟩
    initPhase := nofun
    corePhase := fun _ => .inl rfl
    sleeping := nofun
    nmi := nofun
    oscLoop := nofun
    armed := nofun }

/-- No module is asked to be settled before INIT_HW is complete. -/
theorem ModuleInv.reset : ModuleInv State.reset := fun _ => nofun

/-- Both compare registers are UNKNOWN and the ledger of an empty history is empty. -/
theorem PeriodInv.reset : PeriodInv State.reset := fun t => by cases t <;> rfl

theorem armedAfterClearCheck_nil : armedAfterClearCheck [] := fun before r after hsplit => by simp at hsplit

theorem ArmingInv.reset : ArmingInv State.reset := ⟨armedAfterClearCheck_nil, nofun⟩

/-- Settles O51: one lemma per invariant; an empty history has no NMI_EXIT. -/
theorem resetMeetsTheInvariants : Obligations.ResetMeetsTheInvariants :=
  ⟨Inv.reset, ModuleInv.reset, PeriodInv.reset, ArmingInv.reset, OscInv.reset, rfl⟩

end Sys2Proof.Machine
